-- ==== Sys2Proof/Word.lean ====
section
/-! DEFINITION. The units the manual is written in: bytes, the numbers that name records, and the names
(frame kinds, ports, lanes, chain ends) that both the commands and the state use. -/

namespace Sys2Proof

abbrev Byte := BitVec 8

/-- A station number 1–32, held as the number less 1. -/
abbrev StationId := Fin 32
/-- A node position 1–32 counted from CA, held as the number less 1. -/
abbrev Position := Fin 32
abbrev Alliance := Fin 4
/-- A queue area 0–11. -/
abbrev AreaId := Fin 12
/-- A rule index 0–47. -/
abbrev RuleIx := Fin 48
/-- A transaction tag 0–7. -/
abbrev TagId := Fin 8
/-- A goal slot 0–7. -/
abbrev GoalSlot := Fin 8
/-- A radio port RL0–RL3. -/
abbrev RadioPort := Fin 4

/-- The eleven frame kinds (01_frames_and_chain_messages.md, Header). -/
inductive Kind where
  | join | beacon | pilot | telem | element | claim | release | answer | arena | mgmt | report
  deriving DecidableEq, Repr

/-- The five frame ports. -/
inductive Port where
  | ml
  | rl (k : RadioPort)
  deriving DecidableEq, Repr

/-- The two chain ends. -/
inductive ChainEnd where
  | ca | cb
  deriving DecidableEq, Repr

inductive Lane where
  | urgent | normal | bulk
  deriving DecidableEq, Repr

/-- A version-1 frame less its kind and CRC. The header's station numbers stand in bits 5–0 of their bytes. -/
structure FrameBody where
  source      : BitVec 6
  destination : BitVec 6
  sequence    : Byte
  label       : Byte
  payload     : List Byte
  deriving DecidableEq, Repr

/-- A version-1 frame. Its length byte and its CRC follow from the rest (R1, R2). -/
structure Frame extends FrameBody where
  kind : Kind
  deriving DecidableEq, Repr

/-- What a MGMT frame brings to a request: its sequence, the request tag and the argument bytes (R188). -/
structure Request where
  sequence : Byte
  tag      : Byte
  args     : List Byte
  deriving DecidableEq, Repr

end Sys2Proof
end

