-- ==== Sys2Proof/Config.lean ====
section
/-! DEFINITION. What is fixed for the part: the power-on values and limits the manual gives as numbers. The
manual leaves no value of a result open, so there is no free value here. -/

namespace Sys2Proof.Config

/-- Saturation of the 16-bit counts and totals (R7, R42, R121, R182, R186). -/
def maxCount : Nat := 65535
/-- Saturation of a tally count (R175, R178). -/
def maxTally : Nat := 255
/-- Longest payload a frame may have (R6). -/
def maxPayload : Nat := 48
/-- Bytes of one delivery that a framer keeps (R5). -/
def keptBytes : Nat := 64
/-- Bytes of the arriving frame a COPY notice shows (R43). -/
def copyBytes : Nat := 40
/-- Longest waiter list (R77). -/
def maxWaiters : Nat := 4
/-- Entries one robot may hold (R75 check 9). -/
def maxClaims : Nat := 2
/-- Declared partners the map may hold (R66 check 7). -/
def maxPartners : Nat := 8
/-- Misses at which a node is lost (R137). -/
def maxMisses : Nat := 3
/-- Match time between two credit ticks, ms (R160). -/
def tickLength : Nat := 10
/-- Shortest hold granted, ms (R76). -/
def minHold : Nat := 100

/-- Power-on stale limit, ms (R15). -/
def staleLimit : Nat := 750
/-- Power-on credit rate and burst (R101). -/
def creditRate : Nat := 4
def creditBurst : Nat := 4
/-- Power-on profile (R58). -/
def profileHold : Nat := 10000
def profileBar : Nat := 0
def profileCost : Nat := 16
/-- Power-on reply timeout, ms (R133). -/
def replyTimeout : Nat := 20
/-- Power-on phase lengths and silence limit, ms (R155). -/
def autoLength : Nat := 15000
def transitLength : Nat := 3000
def driverLength : Nat := 120000
def endgameLength : Nat := 30000
def silenceLimit : Nat := 1000
/-- Power-on settle time of a goal slot, ms (R173). -/
def settleTime : Nat := 100
/-- Power-on end of area 0 (R117). -/
def areaZeroEnd : Nat := 16

end Sys2Proof.Config
end

