-- ==== Sys2Proof/Syntax.lean ====
section
/-! DEFINITION. The commands: one constructor for each row of spec/opcode_table.json.

A station frame's row carries the ingress port and the frame less its kind, which the row fixes. A request's row
carries the sequence, tag and argument bytes of its MGMT frame; the row fixes the request code. A step of the part's own
(a take, a dequeue, an expiry) carries the number of the port, end, station, position, tag or slot it is about. -/

namespace Sys2Proof

inductive Instr where
  /-- POWER_ON (R196). -/
  | powerOn
  /-- RECEIVE_START (R5). -/
  | receiveStart (p : Port) (bytes : List Byte)
  /-- FRAME_DISCARD (R6). -/
  | frameDiscard (p : Port) (bytes : List Byte)
  /-- PORT_GATE_DROP (R38). -/
  | portGateDrop (p : Port) (f : Frame)
  /-- JOIN (R21). -/
  | join (p : Port) (f : FrameBody)
  /-- BEACON (R23). -/
  | beacon (p : Port) (f : FrameBody)
  /-- PILOT (R54). -/
  | pilot (p : Port) (f : FrameBody)
  /-- TELEM (R54). -/
  | telem (p : Port) (f : FrameBody)
  /-- ELEMENT (R98). -/
  | element (p : Port) (f : FrameBody)
  /-- CLAIM (R75). -/
  | claim (p : Port) (f : FrameBody)
  /-- RELEASE (R81). -/
  | release (p : Port) (f : FrameBody)
  /-- MGMT_SHORT (R188). -/
  | mgmtShort (sequence : Byte) (payload : List Byte)
  /-- UNKNOWN_REQUEST (R188). -/
  | unknownRequest (code : Byte) (r : Request)
  /-- READ_STATUS (R172). -/
  | readStatus (r : Request)
  /-- KEEPALIVE (R193). -/
  | keepalive (r : Request)
  /-- FULL_RESET (R194). -/
  | fullReset (r : Request)
  /-- FIELD_RESET (R195). -/
  | fieldReset (r : Request)
  /-- LINK_RESET (R130). -/
  | linkReset (r : Request)
  /-- ENROL (R24). -/
  | enrol (r : Request)
  /-- UNENROL (R25). -/
  | unenrol (r : Request)
  /-- DISABLE (R26). -/
  | disable (r : Request)
  /-- ENABLE (R28). -/
  | enable (r : Request)
  /-- EJECT (R29). -/
  | eject (r : Request)
  /-- READ_STATION (R36). -/
  | readStation (r : Request)
  /-- STALE_LIMIT (R35). -/
  | staleLimit (r : Request)
  /-- WRITE_RULE (R48). -/
  | writeRule (r : Request)
  /-- READ_RULE (R49). -/
  | readRule (r : Request)
  /-- RULE_COUNT (R50). -/
  | ruleCount (r : Request)
  /-- KIND_DEFAULT (R51). -/
  | kindDefault (r : Request)
  /-- MAP_WINDOW (R63). -/
  | mapWindow (r : Request)
  /-- HIDE (R64). -/
  | hide (r : Request)
  /-- PARTNER (R66). -/
  | partner (r : Request)
  /-- PARTNER_REMOVE (R67). -/
  | partnerRemove (r : Request)
  /-- PROFILE (R69). -/
  | profile (r : Request)
  /-- READ_MAP (R70). -/
  | readMap (r : Request)
  /-- READ_CLAIM (R97). -/
  | readClaim (r : Request)
  /-- CREDIT_PARAMS (R105). -/
  | creditParams (r : Request)
  /-- READ_CREDIT (R106). -/
  | readCredit (r : Request)
  /-- AREA (R118). -/
  | area (r : Request)
  /-- JOIN_AREA (R119). -/
  | joinArea (r : Request)
  /-- CLEAR_AREA (R128). -/
  | clearArea (r : Request)
  /-- READ_AREA (R132). -/
  | readArea (r : Request)
  /-- CHAIN_CONFIG (R135). -/
  | chainConfig (r : Request)
  /-- CENSUS (R141). -/
  | census (r : Request)
  /-- ELEMENT_DIRECT (R146). -/
  | elementDirect (r : Request)
  /-- RESET_NODE (R149). -/
  | resetNode (r : Request)
  /-- READ_NODE (R154). -/
  | readNode (r : Request)
  /-- PHASE_TIMES (R171). -/
  | phaseTimes (r : Request)
  /-- STAGE (R161). -/
  | stage (r : Request)
  /-- UNSTAGE (R162). -/
  | unstage (r : Request)
  /-- START (R163). -/
  | start (r : Request)
  /-- PAUSE (R164). -/
  | pause (r : Request)
  /-- RESUME (R165). -/
  | resume (r : Request)
  /-- ABORT (R167). -/
  | abort (r : Request)
  /-- SILENCE_LIMIT (R170). -/
  | silenceLimit (r : Request)
  /-- GOAL_CONFIG (R174). -/
  | goalConfig (r : Request)
  /-- RULING (R185). -/
  | ruling (r : Request)
  /-- PENALTY (R186). -/
  | penalty (r : Request)
  /-- AWARD (R186). -/
  | award (r : Request)
  /-- READ_SCORE (R187). -/
  | readScore (r : Request)
  /-- TRANSMITTER_TAKE (R124). -/
  | transmitterTake (p : Port)
  /-- TRANSMIT_COMPLETE (R125). -/
  | transmitComplete (p : Port) (transmission : Nat)
  /-- LINE_DOWN (R125). -/
  | lineDown (p : Port)
  /-- LINE_UP (R125). -/
  | lineUp (p : Port)
  /-- REPLY (R112). -/
  | reply (e : ChainEnd) (position tag status : Byte) (value : BitVec 16)
  /-- PROBE_REPLY (R142). -/
  | probeReply (e : ChainEnd) (position nodeKind : Byte)
  /-- SENSE (R153). -/
  | sense (e : ChainEnd) (position code : Byte)
  /-- CHAIN_MESSAGE_DISCARD (R13). -/
  | chainMessageDiscard (e : ChainEnd) (bytes : List Byte)
  /-- CHAIN_SEND_NEXT (R140). -/
  | chainSendNext (e : ChainEnd)
  /-- DEQUEUE (R107). -/
  | dequeue
  /-- PENDING_SEND (R147). -/
  | pendingSend
  /-- QUIET_EXPIRY (R20). -/
  | quietExpiry (n : StationId)
  /-- HOLD_EXPIRY (R83). -/
  | holdExpiry (q : Position)
  /-- BAR_EXPIRY (R86). -/
  | barExpiry (q : Position)
  /-- PHASE_EXPIRY (R157). -/
  | phaseExpiry
  /-- SILENCE_EXPIRY (R169). -/
  | silenceExpiry
  /-- CREDIT_TICK (R102). -/
  | creditTick
  /-- REPLY_TIMEOUT (R114). -/
  | replyTimeout (t : TagId)
  /-- PROBE_TIMEOUT (R142). -/
  | probeTimeout
  /-- SETTLE_EXPIRY (R179). -/
  | settleExpiry (g : GoalSlot)
  /-- FINAL_SETTLE_EXPIRY (R184). -/
  | finalSettleExpiry
  deriving DecidableEq, Repr

end Sys2Proof
end

