-- ==== Sys2Proof/Decode.lean ====
section
/-! DEFINITION. The bytes on the lines: the codes of names, the CRC, the layout of frames and chain messages, and which
command a delivery is. The rows of spec/opcode_table.json have no bits, so decodeTableWord reads none. -/

namespace Sys2Proof

/-! ### Numbers and bytes -/

/-- The number the manual gives a record that the model counts from 0 (stations and positions count from 1). -/
def num {n : Nat} (i : Fin n) : Nat := i.val + 1

/-- The record that a number from 1 up names, if there is one. -/
def ofNum (n k : Nat) : Option (Fin n) :=
  if h : 1 ≤ k ∧ k ≤ n then some ⟨k - 1, by omega⟩ else none

/-- The record that an index from 0 up names, if there is one. -/
def ofIndex (n k : Nat) : Option (Fin n) :=
  if h : k < n then some ⟨k, h⟩ else none

/-- A number as one byte. -/
def byte (k : Nat) : Byte := BitVec.ofNat 8 k

/-- A number as two bytes, high byte first (Conventions, Numbers). -/
def be16 (k : Nat) : List Byte := [byte (k / 256), byte k]

/-- A number as four bytes, high byte first. -/
def be32 (k : Nat) : List Byte := [byte (k / 16777216), byte (k / 65536), byte (k / 256), byte k]

/-- The two bytes of a 16-bit value, high byte first. -/
def bytes16 (v : BitVec 16) : List Byte := [v.extractLsb' 8 8, v.extractLsb' 0 8]

/-- The 16-bit value of two bytes, high byte first. -/
def word16 (hi lo : Byte) : BitVec 16 := hi ++ lo

/-! ### Codes of names (01_frames_and_chain_messages.md) -/

def Kind.code : Kind → Nat
  | .join => 1 | .beacon => 2 | .pilot => 3 | .telem => 4 | .element => 5 | .claim => 6
  | .release => 7 | .answer => 8 | .arena => 9 | .mgmt => 10 | .report => 11

/-- The kind of a kind code; 0 and 12–15 are invalid. -/
def Kind.ofCode : Nat → Option Kind
  | 1 => some .join | 2 => some .beacon | 3 => some .pilot | 4 => some .telem | 5 => some .element
  | 6 => some .claim | 7 => some .release | 8 => some .answer | 9 => some .arena | 10 => some .mgmt
  | 11 => some .report | _ => none

/-- Port code (R11). -/
def Port.code : Port → Nat
  | .ml => 0
  | .rl k => k.val + 1

/-- The frame port of a port code (R11). -/
def Port.ofCode (c : Nat) : Option Port :=
  if c = 0 then some .ml else (ofNum 4 c).map .rl

def Lane.code : Lane → Nat
  | .urgent => 0 | .normal => 1 | .bulk => 2

def Lane.ofCode : Nat → Option Lane
  | 0 => some .urgent | 1 => some .normal | 2 => some .bulk | _ => none

def ChainEnd.code : ChainEnd → Nat
  | .ca => 0 | .cb => 1

/-! ### Frames -/

/-- Whether a header station number is one: 0, 1–32 or 63 (R6). -/
def validNumber (n : BitVec 6) : Bool := n.toNat ≤ 32 || n.toNat == 63

/-- Whether a framer accepts a frame whose CRC, version, kind and length are right (R6). -/
def FrameBody.acceptable (f : FrameBody) : Bool :=
  validNumber f.source && validNumber f.destination && decide (f.payload.length ≤ Config.maxPayload)

/-- One bit of the CRC of R2: shift, and exclusive-OR with 0x1021 where the bit differs from the top bit. -/
def crcBit (reg : BitVec 16) (b : Bool) : BitVec 16 :=
  if b != reg.msb then (reg <<< 1) ^^^ 0x1021#16 else reg <<< 1

/-- One byte of the CRC, most significant bit first (R2). -/
def crcByte (reg : BitVec 16) (b : Byte) : BitVec 16 :=
  [7, 6, 5, 4, 3, 2, 1, 0].foldl (fun r i => crcBit r (b.getLsbD i)) reg

/-- The CRC over the header and payload bytes in the order they are sent (R2). -/
def crc (bs : List Byte) : BitVec 16 := bs.foldl crcByte 0xFFFF#16

/-- Byte 0 of a frame: the kind in bits 7–4, version 1 in bits 3–0. -/
def kindByte (k : Kind) : Byte := byte (k.code * 16 + 1)

/-- The header and payload of a frame (01_frames_and_chain_messages.md, Header). -/
def Frame.content (f : Frame) : List Byte :=
  [kindByte f.kind, f.source.zeroExtend 8, f.destination.zeroExtend 8, f.sequence, byte f.payload.length, f.label]
    ++ f.payload

/-- The frame as it stands on the line: header, payload, CRC high byte first (R2). -/
def Frame.wire (f : Frame) : List Byte := f.content ++ bytes16 (crc f.content)

/-- The frame of a delivery that passes every check of R6; none for a delivery the framer discards. -/
def parseFrame (bs : List Byte) : Option Frame :=
  match bs with
  | b0 :: b1 :: b2 :: b3 :: b4 :: b5 :: rest =>
    let payload := rest.take b4.toNat
    let f : FrameBody := { source := b1.truncate 6, destination := b2.truncate 6, sequence := b3, label := b5, payload }
    match Kind.ofCode (b0.toNat / 16) with
    | none => none
    | some kind =>
      if b4.toNat ≤ Config.maxPayload ∧ bs.length = b4.toNat + 8 ∧ b0.toNat % 16 = 1 ∧ b1.toNat < 64 ∧ b2.toNat < 64
          ∧ f.acceptable = true ∧ rest.drop b4.toNat = bytes16 (crc (bs.take (b4.toNat + 6)))
      then some { toFrameBody := f, kind } else none
  | _ => none

/-- The port gate of R38. -/
def gateAccepts (p : Port) (f : Frame) : Bool :=
  match f.kind, p with
  | .mgmt, .ml => f.source == 0 && f.destination == 0
  | .join, .rl _ | .beacon, .rl _ | .pilot, .rl _ | .telem, .rl _ => true
  | .element, .rl _ | .claim, .rl _ | .release, .rl _ => true
  | _, _ => false

/-! ### Requests -/

/-- The request catalogue: code and number of argument bytes (11_management_requests.md). -/
def catalogue : List (Nat × Nat) :=
  [(0x01, 0), (0x02, 0), (0x03, 0), (0x04, 0), (0x05, 1), (0x10, 6), (0x11, 1), (0x12, 1),
   (0x13, 1), (0x14, 1), (0x15, 1), (0x16, 2), (0x20, 12), (0x21, 2), (0x22, 1), (0x23, 2),
   (0x30, 3), (0x31, 2), (0x32, 2), (0x33, 7), (0x34, 1), (0x38, 1), (0x3C, 2), (0x3D, 1),
   (0x40, 5), (0x41, 3), (0x42, 1), (0x43, 2), (0x50, 3), (0x51, 0), (0x52, 4), (0x53, 1),
   (0x54, 1), (0x60, 12), (0x61, 0), (0x62, 0), (0x63, 0), (0x64, 0), (0x65, 0), (0x66, 0),
   (0x67, 2), (0x70, 8), (0x71, 4), (0x72, 3), (0x73, 3), (0x74, 2)]

/-- How many argument bytes the request with this code takes; none for a code not in the catalogue. -/
def argumentLength (code : Nat) : Option Nat := catalogue.lookup code

/-- Whether a request with code 0x32 removes a declaration: its action byte is 0 (R67). -/
def removesPartner (r : Request) : Bool := r.args[1]? == some 0

/-- The command of a request code (R188); a code not in the catalogue has none. -/
def requestCommand (code : Nat) (r : Request) : Option Instr :=
  match code with
  | 0x01 => some (.readStatus r)
  | 0x02 => some (.keepalive r)
  | 0x03 => some (.fullReset r)
  | 0x04 => some (.fieldReset r)
  | 0x05 => some (.linkReset r)
  | 0x10 => some (.enrol r)
  | 0x11 => some (.unenrol r)
  | 0x12 => some (.disable r)
  | 0x13 => some (.enable r)
  | 0x14 => some (.eject r)
  | 0x15 => some (.readStation r)
  | 0x16 => some (.staleLimit r)
  | 0x20 => some (.writeRule r)
  | 0x21 => some (.readRule r)
  | 0x22 => some (.ruleCount r)
  | 0x23 => some (.kindDefault r)
  | 0x30 => some (.mapWindow r)
  | 0x31 => some (.hide r)
  | 0x32 => some (if removesPartner r then .partnerRemove r else .partner r)
  | 0x33 => some (.profile r)
  | 0x34 => some (.readMap r)
  | 0x38 => some (.readClaim r)
  | 0x3C => some (.creditParams r)
  | 0x3D => some (.readCredit r)
  | 0x40 => some (.area r)
  | 0x41 => some (.joinArea r)
  | 0x42 => some (.clearArea r)
  | 0x43 => some (.readArea r)
  | 0x50 => some (.chainConfig r)
  | 0x51 => some (.census r)
  | 0x52 => some (.elementDirect r)
  | 0x53 => some (.resetNode r)
  | 0x54 => some (.readNode r)
  | 0x60 => some (.phaseTimes r)
  | 0x61 => some (.stage r)
  | 0x62 => some (.unstage r)
  | 0x63 => some (.start r)
  | 0x64 => some (.pause r)
  | 0x65 => some (.resume r)
  | 0x66 => some (.abort r)
  | 0x67 => some (.silenceLimit r)
  | 0x70 => some (.goalConfig r)
  | 0x71 => some (.ruling r)
  | 0x72 => some (.penalty r)
  | 0x73 => some (.award r)
  | 0x74 => some (.readScore r)
  | _ => none

/-- The command of a MGMT payload: too short for a tag, unknown, or a request of the catalogue (R188). -/
def mgmtCommand (sequence : Byte) (payload : List Byte) : Instr :=
  match payload with
  | code :: tag :: args =>
    let r : Request := { sequence, tag, args }
    (requestCommand code.toNat r).getD (.unknownRequest code r)
  | _ => .mgmtShort sequence payload

/-- The command of an accepted frame on its ingress port (R37, R38). -/
def frameCommand (p : Port) (f : Frame) : Instr :=
  if gateAccepts p f then
    match f.kind with
    | .join => .join p f.toFrameBody
    | .beacon => .beacon p f.toFrameBody
    | .pilot => .pilot p f.toFrameBody
    | .telem => .telem p f.toFrameBody
    | .element => .element p f.toFrameBody
    | .claim => .claim p f.toFrameBody
    | .release => .release p f.toFrameBody
    | .mgmt => mgmtCommand f.sequence f.payload
    | .answer | .arena | .report => .portGateDrop p f
  else .portGateDrop p f

/-- The command that a delivery on a frame port is (R5, R6, R38, R188). -/
def deliveryCommand (p : Port) (bs : List Byte) : Instr :=
  match parseFrame bs with
  | none => .frameDiscard p bs
  | some f => frameCommand p f

/-- The request code and request of a request's command. -/
def Instr.request? : Instr → Option (Nat × Request)
  | .readStatus r => some (0x01, r)
  | .keepalive r => some (0x02, r)
  | .fullReset r => some (0x03, r)
  | .fieldReset r => some (0x04, r)
  | .linkReset r => some (0x05, r)
  | .enrol r => some (0x10, r)
  | .unenrol r => some (0x11, r)
  | .disable r => some (0x12, r)
  | .enable r => some (0x13, r)
  | .eject r => some (0x14, r)
  | .readStation r => some (0x15, r)
  | .staleLimit r => some (0x16, r)
  | .writeRule r => some (0x20, r)
  | .readRule r => some (0x21, r)
  | .ruleCount r => some (0x22, r)
  | .kindDefault r => some (0x23, r)
  | .mapWindow r => some (0x30, r)
  | .hide r => some (0x31, r)
  | .partner r => some (0x32, r)
  | .profile r => some (0x33, r)
  | .readMap r => some (0x34, r)
  | .readClaim r => some (0x38, r)
  | .creditParams r => some (0x3C, r)
  | .readCredit r => some (0x3D, r)
  | .area r => some (0x40, r)
  | .joinArea r => some (0x41, r)
  | .clearArea r => some (0x42, r)
  | .readArea r => some (0x43, r)
  | .chainConfig r => some (0x50, r)
  | .census r => some (0x51, r)
  | .elementDirect r => some (0x52, r)
  | .resetNode r => some (0x53, r)
  | .readNode r => some (0x54, r)
  | .phaseTimes r => some (0x60, r)
  | .stage r => some (0x61, r)
  | .unstage r => some (0x62, r)
  | .start r => some (0x63, r)
  | .pause r => some (0x64, r)
  | .resume r => some (0x65, r)
  | .abort r => some (0x66, r)
  | .silenceLimit r => some (0x67, r)
  | .goalConfig r => some (0x70, r)
  | .ruling r => some (0x71, r)
  | .penalty r => some (0x72, r)
  | .award r => some (0x73, r)
  | .readScore r => some (0x74, r)
  | .partnerRemove r => some (0x32, r)
  | .unknownRequest code r => some (code.toNat, r)
  | _ => none

/-- The MGMT frame that carries a payload: source, destination and label 0 (R38). -/
def mgmtFrame (sequence : Byte) (payload : List Byte) : Frame :=
  { source := 0, destination := 0, sequence, label := 0, payload, kind := .mgmt }

/-- The port and the bytes with which an arrival command comes; none for a command that is no arrival on a
frame port. -/
def Instr.delivery? (i : Instr) : Option (Port × List Byte) :=
  match i with
  | .frameDiscard p bs => some (p, bs)
  | .portGateDrop p f => some (p, f.wire)
  | .join p f => some (p, Frame.wire { toFrameBody := f, kind := .join })
  | .beacon p f => some (p, Frame.wire { toFrameBody := f, kind := .beacon })
  | .pilot p f => some (p, Frame.wire { toFrameBody := f, kind := .pilot })
  | .telem p f => some (p, Frame.wire { toFrameBody := f, kind := .telem })
  | .element p f => some (p, Frame.wire { toFrameBody := f, kind := .element })
  | .claim p f => some (p, Frame.wire { toFrameBody := f, kind := .claim })
  | .release p f => some (p, Frame.wire { toFrameBody := f, kind := .release })
  | .mgmtShort sequence payload => some (.ml, (mgmtFrame sequence payload).wire)
  | i => i.request?.map fun (code, r) => (.ml, (mgmtFrame r.sequence (byte code :: r.tag :: r.args)).wire)

/-! ### Chain messages -/

/-- The check byte that brings the sum of the eight bytes to 0 modulo 256 (R12). -/
def chainCheck (bs : List Byte) : Byte := 0 - bs.foldl (· + ·) 0

/-- The eight bytes of a chain message (R12). -/
def chainBytes (type position tag code : Byte) (value : BitVec 16) : List Byte :=
  let front := [type, position, tag, code] ++ bytes16 value ++ [0]
  front ++ [chainCheck front]

/-- The node position of a position byte (1–32). -/
def positionOf (b : Byte) : Option Position := ofNum 32 b.toNat

/-- The command that a message arriving on a chain end is: a message that fails a check of R13 or R14 is a
discard. -/
def chainCommand (e : ChainEnd) (bs : List Byte) : Instr :=
  match bs with
  | [type, position, tag, code, hi, lo, _, _] =>
    if bs.foldl (· + ·) 0 ≠ 0 ∨ positionOf position = none then .chainMessageDiscard e bs
    else if type = 0x02 ∧ code.toNat ≤ 2 then .reply e position tag code (word16 hi lo)
    else if type = 0x03 ∧ code.toNat % 16 ≠ 0 then .sense e position code
    else if type = 0x05 ∧ code.toNat ≤ 6 then .probeReply e position code
    else .chainMessageDiscard e bs
  | _ => .chainMessageDiscard e bs

/-- The chain end and the bytes with which a message command comes; the bytes a message type does not use are 0
as the message table gives them. -/
def Instr.message? : Instr → Option (ChainEnd × List Byte)
  | .reply e position tag status value => some (e, chainBytes 0x02 position tag status value)
  | .sense e position code => some (e, chainBytes 0x03 position 0 code 0)
  | .probeReply e position nodeKind => some (e, chainBytes 0x05 position 0 nodeKind 0)
  | .chainMessageDiscard e bs => some (e, bs)
  | _ => none

/-! ### The opcode table -/

/-- The rows of spec/opcode_table.json have no bits: no word spells a command. -/
def decodeTableWord (_nbits _w : Nat) : Option Instr := none

end Sys2Proof
end

