-- ==== Sys2Proof/Machine/Table.lean ====
section
/-! DEFINITION. A table of a fixed number of like records, read and written by number. It is a list with its length,
so that every operation reduces in the kernel. -/

namespace Sys2Proof

structure Table (α : Type) (n : Nat) where
  items : List α
  size  : items.length = n
  deriving DecidableEq, Repr

namespace Table
variable {α β : Type} {n : Nat}

def get (t : Table α n) (i : Fin n) : α := t.items[i.val]'(by rw [t.size]; exact i.isLt)

def set (t : Table α n) (i : Fin n) (a : α) : Table α n := ⟨t.items.set i.val a, by rw [List.length_set, t.size]⟩

def modify (t : Table α n) (i : Fin n) (f : α → α) : Table α n := t.set i (f (t.get i))

def fill (n : Nat) (a : α) : Table α n := ⟨List.replicate n a, List.length_replicate⟩

def ofFn (f : Fin n → α) : Table α n := ⟨List.ofFn f, List.length_ofFn⟩

def map (f : α → β) (t : Table α n) : Table β n := ⟨t.items.map f, by rw [List.length_map, t.size]⟩

/-- The lowest number whose record has the property. -/
def find? (t : Table α n) (p : α → Bool) : Option (Fin n) := (List.finRange n).find? fun i => p (t.get i)

def count (t : Table α n) (p : α → Bool) : Nat := t.items.countP p

end Table
end Sys2Proof
end

