-- ==== Sys2Proof/Machine/State.lean ====
section
/-! DEFINITION. Every piece of state the spec gives the part, block by block (INVENTORY.md, State), as plain data, with
the queue of commands that wait; and the state after reset. -/

namespace Sys2Proof.Machine

/-- No behaviour of the part is a fault: a bad frame or message is discarded, a bad request answered (R6, R13, R188).
Nobody raises a fault. -/
inductive Fault
  deriving DecidableEq, Repr

/-- Raised by no meaning: every command of the table has its effect. Safe. -/
inductive Refusal where
  /-- A command whose arm of exec has no meaning yet. Safe: nothing is claimed of it. -/
  | notModelled (mnemonic : String)
  deriving DecidableEq, Repr

/-! ### Port framers (01, 07) -/

/-- A framer's receive state, with the bytes kept of the frame in progress (R5). -/
inductive Receive where
  | idle
  | receiving (kept : List Byte)
  deriving DecidableEq, Repr

inductive Line where
  | up | down
  deriving DecidableEq, Repr

/-- The frame a SENDING transmitter holds: the bytes it sends on the line, and the number of its transmission, by which
a completion belongs to the transmission it reports (R124, R125). -/
structure Transmission where
  number : Nat
  wire   : List Byte
  deriving DecidableEq, Repr

structure PortState where
  receive     : Receive
  line        : Line
  /-- 0–65,535 (R7). -/
  discards    : Nat
  /-- none: IDLE; some: SENDING (R124). -/
  transmitter : Option Transmission
  /-- The model's own: takes so far, the number of the next transmission (notes/assumptions/4.md). -/
  taken       : Nat
  deriving DecidableEq, Repr

structure Framers where
  ml : PortState
  rl : Table PortState 4
  deriving DecidableEq, Repr

/-! ### Station table (02) -/

inductive StationState where
  | vacant | enrolled | linked | stale | disabled | ejected
  deriving DecidableEq, Repr

inductive StationKind where
  | robot | driver
  deriving DecidableEq, Repr

structure Station where
  state        : StationState
  kind         : Option StationKind
  alliance     : Alliance
  team         : Nat
  /-- none: partner 0. -/
  partner      : Option StationId
  recordedPort : Option RadioPort
  /-- none: stopped; some r: running with r ms remaining. -/
  quiet        : Option Nat
  held         : Bool
  deriving DecidableEq, Repr

structure StationTable where
  records    : Table Station 32
  staleLimit : Nat
  deriving DecidableEq, Repr

/-! ### Classifier (03) -/

inductive SourceClass where
  | any | robot | driver
  deriving DecidableEq, Repr

inductive Verdict where
  | pass | copy | steer | deny | drop | disable
  deriving DecidableEq, Repr

/-- A rule of the rule table, its masks as the bits of the layout of WRITE_RULE. -/
structure Rule where
  kinds        : BitVec 11
  sourceClass  : SourceClass
  alliances    : BitVec 4
  stationValue : BitVec 6
  stationMask  : BitVec 6
  ports        : BitVec 5
  phases       : BitVec 8
  verdict      : Verdict
  steerArea    : AreaId
  label        : Byte
  hits         : Nat
  deriving DecidableEq, Repr

inductive KindDefault where
  | pass | drop
  deriving DecidableEq, Repr

structure Classifier where
  rules    : Table Rule 48
  active   : Nat
  /-- Kind code k at index k − 1, for kinds 1–7. -/
  defaults : Table KindDefault 7
  deriving DecidableEq, Repr

/-! ### Arena map (04) -/

structure Window where
  base  : Nat
  limit : Nat
  deriving DecidableEq, Repr

structure Profile where
  maxHold  : Nat
  barTime  : Nat
  costLow  : Nat
  costHigh : Nat
  deriving DecidableEq, Repr

structure ArenaMap where
  homes    : Table Window 4
  shared   : Window
  hideSet  : Table Bool 32
  partners : Table Bool 32
  profiles : Table Profile 32
  deriving DecidableEq, Repr

/-! ### Claim table (05) -/

structure Hold where
  holder    : StationId
  remaining : Nat
  deriving DecidableEq, Repr

structure Bar where
  alliance  : Alliance
  remaining : Nat
  deriving DecidableEq, Repr

structure Waiter where
  station   : StationId
  /-- The requested hold as sent; 0 means the profile maximum. -/
  requested : Nat
  deriving DecidableEq, Repr

structure ClaimEntry where
  /-- none: FREE; some: HELD. -/
  hold    : Option Hold
  bar     : Option Bar
  /-- Oldest first. -/
  waiters : List Waiter
  deriving DecidableEq, Repr

/-! ### Credit unit (06) -/

/-- The cap is 16 × burst (R101). -/
structure Credit where
  rate     : Nat
  burst    : Nat
  balances : Table Nat 32
  deriving DecidableEq, Repr

/-! ### Frame memory and queue manager (07) -/

inductive Consumer where
  | port (p : Port)
  | chain
  deriving DecidableEq, Repr

structure Join where
  consumer : Consumer
  lane     : Lane
  deriving DecidableEq, Repr

/-- A queue area: slots start to stop − 1 (the manual's end is stop). Its count is the number of its frames. -/
structure Area where
  start    : Nat
  stop     : Nat
  join     : Option Join
  /-- Oldest first. -/
  frames   : List Frame
  peak     : Nat
  drops    : Nat
  notified : Bool
  deriving DecidableEq, Repr

/-! ### Chain controller (06, 08) -/

inductive NodeState where
  | absent | present | ready | lost
  deriving DecidableEq, Repr

inductive NodeKind where
  | other | gate | dispenser | goal | lift | light | platform
  deriving DecidableEq, Repr

structure Node where
  state      : NodeState
  kind       : Option NodeKind
  servingEnd : ChainEnd
  misses     : Nat
  deriving DecidableEq, Repr

inductive ChainMode where
  | line | ring
  deriving DecidableEq, Repr

/-- The chain messages the part sends (message table of 01). -/
inductive ChainType where
  | command | probe | wake | halt | resume | resetNode
  deriving DecidableEq, Repr

structure ChainMessage where
  type     : ChainType
  /-- 0 on the signals WAKE, HALT and RESUME. -/
  position : Nat
  tag      : Nat
  code     : Byte
  value    : BitVec 16
  deriving DecidableEq, Repr

/-- The outgoing side of a chain end (R140). -/
structure ChainSide where
  onLine  : Option ChainMessage
  waiting : List ChainMessage
  deriving DecidableEq, Repr

/-- Whose transaction a tag record holds (R109, R146). A departure clears a robot's station (R30). -/
inductive Origin where
  | robot (station : Option StationId) (sequence : Byte)
  | direct (requestTag : Byte)
  deriving DecidableEq, Repr

structure TagRecord where
  origin   : Origin
  position : Position
  sentOn   : ChainEnd
  timer    : Nat
  deriving DecidableEq, Repr

/-- The ELEMENT_DIRECT command in the management pending slot (R146). -/
structure DirectCommand where
  requestTag : Byte
  position   : Position
  function   : Byte
  value      : BitVec 16
  deriving DecidableEq, Repr

/-- A running census and its probe in flight, which goes on the end of the pass (R142). -/
structure Census where
  requestTag : Byte
  pass       : ChainEnd
  position   : Position
  timer      : Nat
  deriving DecidableEq, Repr

structure Chain where
  nodes        : Table Node 32
  mode         : ChainMode
  replyTimeout : Nat
  tags         : Table (Option TagRecord) 8
  slot         : Option DirectCommand
  census       : Option Census
  halted       : Bool
  sideA        : ChainSide
  sideB        : ChainSide
  deriving DecidableEq, Repr

/-! ### Phase controller (09) -/

/-- The running phases. -/
inductive Running where
  | auto | transit | driver | endgame
  deriving DecidableEq, Repr

inductive PauseCause where
  | request | silence
  deriving DecidableEq, Repr

/-- The phase, with the paused-from phase and pause cause that are present in PAUSED alone, and the ended-from phase
that is present in ENDED alone. -/
inductive Phase where
  | setup
  | staged
  | running (r : Running)
  | paused (pausedFrom : Running) (cause : PauseCause)
  | ended (endedFrom : Running)
  deriving DecidableEq, Repr

structure PhaseControl where
  phase         : Phase
  timer         : Nat
  autoLength    : Nat
  transitLength : Nat
  driverLength  : Nat
  endgameLength : Nat
  silenceLimit  : Nat
  /-- none: stopped. -/
  silence       : Option Nat
  /-- The tick accumulator, 0–10 ms (R160). -/
  accumulator   : Nat
  deriving DecidableEq, Repr

/-! ### Score tally (10) -/

structure Goal where
  /-- none: unconfigured. -/
  position   : Option Position
  wAuto      : Nat
  wDriver    : Nat
  wEndgame   : Nat
  tolerance  : Nat
  settleTime : Nat
  deriving DecidableEq, Repr

inductive TallyState where
  | agreed | opened | disputed | ruled
  deriving DecidableEq, Repr

structure TallyRecord where
  main  : Nat
  check : Nat
  state : TallyState
  ruled : Nat
  deriving DecidableEq, Repr

/-- The three records of one goal and alliance, one for each scoring period. -/
structure PeriodRecords where
  auto    : TallyRecord
  driver  : TallyRecord
  endgame : TallyRecord
  deriving DecidableEq, Repr

inductive FinalSettle where
  | idle
  | running (remaining : Nat)
  | done
  deriving DecidableEq, Repr

structure Tally where
  goals     : Table Goal 8
  /-- The settle timer of each goal slot; none: stopped. -/
  settle    : Table (Option Nat) 8
  records   : Table (Table PeriodRecords 4) 8
  bonus     : Table Nat 4
  penalty   : Table Nat 4
  final     : FinalSettle
  deriving DecidableEq, Repr

/-! ### The part -/

structure State where
  framers     : Framers
  stations    : StationTable
  classifier  : Classifier
  map         : ArenaMap
  claims      : Table ClaimEntry 32
  credit      : Credit
  areas       : Table Area 12
  chain       : Chain
  control     : PhaseControl
  tally       : Tally
  reportsLost : Bool
  /-- The commands that wait, first in, first out. -/
  pending     : List Instr
  deriving DecidableEq, Repr

/-! ### The power-on values of each block -/

/-- R5, R7, R117; the line is DOWN (DESIGN CHOICE, notes/assumptions/5.md). -/
def PortState.powerOn : PortState :=
  { receive := .idle, line := .down, discards := 0, transmitter := none, taken := 0 }

def Framers.powerOn : Framers := { ml := .powerOn, rl := .fill 4 .powerOn }

/-- R15. -/
def Station.vacant : Station :=
  { state := .vacant, kind := none, alliance := 0, team := 0, partner := none, recordedPort := none, quiet := none,
    held := false }

def StationTable.powerOn : StationTable := { records := .fill 32 .vacant, staleLimit := Config.staleLimit }

/-- R52. -/
def Rule.powerOn : Rule :=
  { kinds := 0, sourceClass := .any, alliances := 0, stationValue := 0, stationMask := 0, ports := 0, phases := 0,
    verdict := .pass, steerArea := 0, label := 0, hits := 0 }

def Classifier.powerOn : Classifier := { rules := .fill 48 .powerOn, active := 0, defaults := .fill 7 .pass }

/-- R58. -/
def Window.disabled : Window := { base := 1, limit := 0 }

def Profile.powerOn : Profile :=
  { maxHold := Config.profileHold, barTime := Config.profileBar, costLow := Config.profileCost,
    costHigh := Config.profileCost }

def ArenaMap.powerOn : ArenaMap :=
  { homes := .fill 4 .disabled, shared := .disabled, hideSet := .fill 32 false, partners := .fill 32 false,
    profiles := .fill 32 .powerOn }

/-- R72. -/
def ClaimEntry.free : ClaimEntry := { hold := none, bar := none, waiters := [] }

/-- R101. -/
def Credit.cap (c : Credit) : Nat := 16 * c.burst

def Credit.powerOn : Credit :=
  { rate := Config.creditRate, burst := Config.creditBurst, balances := .fill 32 (16 * Config.creditBurst) }

/-- R117. -/
def Area.disabled : Area :=
  { start := 0, stop := 0, join := none, frames := [], peak := 0, drops := 0, notified := false }

def Area.zero : Area :=
  { Area.disabled with stop := Config.areaZeroEnd, join := some { consumer := .port .ml, lane := .normal } }

def powerOnAreas : Table Area 12 := (Table.fill 12 Area.disabled).set 0 Area.zero

/-- R133. -/
def Node.powerOn : Node := { state := .absent, kind := none, servingEnd := .ca, misses := 0 }

def ChainSide.empty : ChainSide := { onLine := none, waiting := [] }

def Chain.powerOn : Chain :=
  { nodes := .fill 32 .powerOn, mode := .line, replyTimeout := Config.replyTimeout, tags := .fill 8 none, slot := none,
    census := none, halted := false, sideA := .empty, sideB := .empty }

/-- R155. -/
def PhaseControl.powerOn : PhaseControl :=
  { phase := .setup, timer := 0, autoLength := Config.autoLength, transitLength := Config.transitLength,
    driverLength := Config.driverLength, endgameLength := Config.endgameLength, silenceLimit := Config.silenceLimit,
    silence := none, accumulator := 0 }

/-- R173. -/
def Goal.unconfigured : Goal :=
  { position := none, wAuto := 0, wDriver := 0, wEndgame := 0, tolerance := 0, settleTime := Config.settleTime }

def TallyRecord.zero : TallyRecord := { main := 0, check := 0, state := .agreed, ruled := 0 }

def PeriodRecords.zero : PeriodRecords := { auto := .zero, driver := .zero, endgame := .zero }

def Tally.powerOn : Tally :=
  { goals := .fill 8 .unconfigured, settle := .fill 8 none, records := .fill 8 (.fill 4 .zero), bonus := .fill 4 0,
    penalty := .fill 4 0, final := .idle }

/-- The START notice with cause POWER_ON: REPORT code 0x80, tag 0, result OK, cause 1 (R11, R196). -/
def startAfterPowerOn : Frame :=
  { source := 0, destination := 0, sequence := 0, label := 0, payload := [0x80, 0, 0, 1], kind := .report }

/-- The part right after its reset input is released (R196): every block at its power-on values, and the START notice
stored in area 0, whose peak it raises to 1 (notes/assumptions/14.md). -/
def State.reset : State :=
  { framers := .powerOn, stations := .powerOn, classifier := .powerOn, map := .powerOn, claims := .fill 32 .free,
    credit := .powerOn, areas := powerOnAreas.set 0 { Area.zero with frames := [startAfterPowerOn], peak := 1 },
    chain := .powerOn, control := .powerOn, tally := .powerOn, reportsLost := false, pending := [] }

end Sys2Proof.Machine
end

