-- ==== Sys2Proof/Machine/Operands.lean ====
section
/-! DEFINITION. Reading operands: the argument bytes of a request and the payload bytes of a frame, as the records,
names and numbers they spell. -/

namespace Sys2Proof.Machine

/-- Byte k of a list of bytes as a number; 0 past the end (a request is checked for its length first, R188). -/
def byteAt (bs : List Byte) (k : Nat) : Nat := (bs.getD k 0).toNat

/-- The two bytes from k on as a number, high byte first. -/
def wordAt (bs : List Byte) (k : Nat) : Nat := byteAt bs k * 256 + byteAt bs (k + 1)

/-- The four bytes from k on as a number, high byte first. -/
def longAt (bs : List Byte) (k : Nat) : Nat := wordAt bs k * 65536 + wordAt bs (k + 2)

/-- The station a header number names; 0 and 63 name none. -/
def stationOf (n : BitVec 6) : Option StationId := ofNum 32 n.toNat

/-- A station number as a header field. -/
def stationField (n : StationId) : BitVec 6 := BitVec.ofNat 6 (num n)

/-- A flag argument: 0 or 1. -/
def flagOf : Nat → Option Bool
  | 0 => some false | 1 => some true | _ => none

/-! ### Codes of R11 and of the argument tables -/

def StationKind.code : StationKind → Nat
  | .robot => 1 | .driver => 2

def StationKind.ofCode : Nat → Option StationKind
  | 1 => some .robot | 2 => some .driver | _ => none

def StationState.code : StationState → Nat
  | .vacant => 0 | .enrolled => 1 | .linked => 2 | .stale => 3 | .disabled => 4 | .ejected => 5

def NodeState.code : NodeState → Nat
  | .absent => 0 | .present => 1 | .ready => 2 | .lost => 3

def NodeKind.code : NodeKind → Nat
  | .other => 0 | .gate => 1 | .dispenser => 2 | .goal => 3 | .lift => 4 | .light => 5 | .platform => 6

def NodeKind.ofCode : Nat → Option NodeKind
  | 0 => some .other | 1 => some .gate | 2 => some .dispenser | 3 => some .goal | 4 => some .lift
  | 5 => some .light | 6 => some .platform | _ => none

def Consumer.code : Consumer → Nat
  | .port p => p.code | .chain => 5

/-- The consumer of a consumer code 0–5. -/
def Consumer.ofCode (c : Nat) : Option Consumer :=
  if c = 5 then some .chain else (Port.ofCode c).map .port

def SourceClass.code : SourceClass → Nat
  | .any => 0 | .robot => 1 | .driver => 2

def SourceClass.ofCode : Nat → Option SourceClass
  | 0 => some .any | 1 => some .robot | 2 => some .driver | _ => none

def Verdict.code : Verdict → Nat
  | .pass => 0 | .copy => 1 | .steer => 2 | .deny => 3 | .drop => 4 | .disable => 5

def Verdict.ofCode : Nat → Option Verdict
  | 0 => some .pass | 1 => some .copy | 2 => some .steer | 3 => some .deny | 4 => some .drop | 5 => some .disable
  | _ => none

def KindDefault.code : KindDefault → Nat
  | .pass => 0 | .drop => 1

def KindDefault.ofCode : Nat → Option KindDefault
  | 0 => some .pass | 1 => some .drop | _ => none

def ChainMode.code : ChainMode → Nat
  | .line => 0 | .ring => 1

def ChainMode.ofCode : Nat → Option ChainMode
  | 0 => some .line | 1 => some .ring | _ => none

def Running.code : Running → Nat
  | .auto => 2 | .transit => 3 | .driver => 4 | .endgame => 5

/-- The phase code (ARENA notices, 01). -/
def Phase.code : Phase → Nat
  | .setup => 0 | .staged => 1 | .running r => r.code | .paused _ _ => 6 | .ended _ => 7

def PauseCause.code : PauseCause → Nat
  | .request => 1 | .silence => 2

def TallyState.code : TallyState → Nat
  | .agreed => 0 | .opened => 1 | .disputed => 2 | .ruled => 3

def FinalSettle.code : FinalSettle → Nat
  | .idle => 0 | .running _ => 1 | .done => 2

/-- The scoring periods; in every report they carry the phase code of their phase. -/
inductive Period where
  | auto | driver | endgame
  deriving DecidableEq, Repr

def Period.code : Period → Nat
  | .auto => 2 | .driver => 4 | .endgame => 5

def Period.ofCode : Nat → Option Period
  | 2 => some .auto | 4 => some .driver | 5 => some .endgame | _ => none

def Period.all : List Period := [.auto, .driver, .endgame]

/-- Type codes of the chain messages the part sends (message table of 01). -/
def ChainType.code : ChainType → Nat
  | .command => 0x01 | .probe => 0x04 | .wake => 0x08 | .halt => 0x09 | .resume => 0x0A | .resetNode => 0x0B

/-- The eight bytes of a message the part sends (R12). -/
def ChainMessage.wire (m : ChainMessage) : List Byte :=
  chainBytes (byte m.type.code) (byte m.position) (byte m.tag) m.code m.value

/-- A set of positions as four bytes: byte k holds positions 8k + 1 to 8k + 8, bit 0 the lowest (R70). -/
def setBytes (t : Table Bool 32) : List Byte :=
  [0, 8, 16, 24].map fun k =>
    byte ((List.range 8).foldl (fun acc j => acc + if (t.items.getD (k + j) false) then 2 ^ j else 0) 0)

end Sys2Proof.Machine
end

