-- ==== Sys2Proof/Machine/Ops.lean ====
section
/-! DEFINITION. The named operations over the state that the meanings share: reading and writing one record, composing
frames (R1, R8 to R11), offering them to the queue manager (R120 to R122), sending on the chain ends (R140), and the
passage of time. -/

namespace Sys2Proof.Machine

/-! ### One record at a time -/

def State.port (s : State) : Port → PortState
  | .ml => s.framers.ml
  | .rl k => s.framers.rl.get k

def State.setPort (s : State) (p : Port) (x : PortState) : State :=
  match p with
  | .ml => { s with framers := { s.framers with ml := x } }
  | .rl k => { s with framers := { s.framers with rl := s.framers.rl.set k x } }

def State.station (s : State) (n : StationId) : Station := s.stations.records.get n

def State.setStation (s : State) (n : StationId) (x : Station) : State :=
  { s with stations := { s.stations with records := s.stations.records.set n x } }

def State.rule (s : State) (i : RuleIx) : Rule := s.classifier.rules.get i

def State.setRule (s : State) (i : RuleIx) (x : Rule) : State :=
  { s with classifier := { s.classifier with rules := s.classifier.rules.set i x } }

def State.profile (s : State) (q : Position) : Profile := s.map.profiles.get q

def State.claim (s : State) (q : Position) : ClaimEntry := s.claims.get q

def State.setClaim (s : State) (q : Position) (x : ClaimEntry) : State := { s with claims := s.claims.set q x }

def State.balance (s : State) (n : StationId) : Nat := s.credit.balances.get n

def State.area (s : State) (a : AreaId) : Area := s.areas.get a

def State.setArea (s : State) (a : AreaId) (x : Area) : State := { s with areas := s.areas.set a x }

def State.node (s : State) (q : Position) : Node := s.chain.nodes.get q

def State.setNode (s : State) (q : Position) (x : Node) : State :=
  { s with chain := { s.chain with nodes := s.chain.nodes.set q x } }

def State.tag (s : State) (t : TagId) : Option TagRecord := s.chain.tags.get t

def State.setTag (s : State) (t : TagId) (x : Option TagRecord) : State :=
  { s with chain := { s.chain with tags := s.chain.tags.set t x } }

def State.setCensus (s : State) (x : Option Census) : State := { s with chain := { s.chain with census := x } }

def State.setSlot (s : State) (x : Option DirectCommand) : State := { s with chain := { s.chain with slot := x } }

def State.setHalted (s : State) (x : Bool) : State := { s with chain := { s.chain with halted := x } }

def State.side (s : State) : ChainEnd → ChainSide
  | .ca => s.chain.sideA
  | .cb => s.chain.sideB

def State.setSide (s : State) (e : ChainEnd) (x : ChainSide) : State :=
  match e with
  | .ca => { s with chain := { s.chain with sideA := x } }
  | .cb => { s with chain := { s.chain with sideB := x } }

def State.setReportsLost (s : State) (x : Bool) : State := { s with reportsLost := x }

/-- A count that stays at its limit once it has reached it (R7, R42, R121). -/
def countUp (limit k by_ : Nat) : Nat := min limit (k + by_)

/-- The port's discard count is raised by 1 (R7). -/
def countDiscard (p : Port) (s : State) : State :=
  s.setPort p { s.port p with discards := countUp Config.maxCount (s.port p).discards 1 }

/-- The port's receive state becomes IDLE (R5). -/
def receiveIdle (p : Port) (s : State) : State := s.setPort p { s.port p with receive := .idle }

/-! ### Composing frames -/

/-- Answer codes (01, Answer codes). -/
inductive AnswerCode where
  | done | granted | queued | released | withdrawn | joinOk | expired | grantedLater
  | phase | rule | hidden | foreign | unmapped | nodeDown | notHolder | slow
  | busy | notShared | partner | barred | listFull | holdLimit | waiting
  | teamMismatch | notEnrolled | stationDisabled | stationEjected | cleared | aborted | timeout
  | nodeFault | badFunction | malformed | held
  deriving DecidableEq, Repr

def AnswerCode.code : AnswerCode → Nat
  | .done => 0x00 | .granted => 0x01 | .queued => 0x02 | .released => 0x03 | .withdrawn => 0x04 | .joinOk => 0x05
  | .expired => 0x06 | .grantedLater => 0x07 | .phase => 0x10 | .rule => 0x11 | .hidden => 0x12 | .foreign => 0x13
  | .unmapped => 0x14 | .nodeDown => 0x15 | .notHolder => 0x17 | .slow => 0x18 | .busy => 0x19 | .notShared => 0x1A
  | .partner => 0x1B | .barred => 0x1C | .listFull => 0x1D | .holdLimit => 0x1E | .waiting => 0x1F
  | .teamMismatch => 0x20 | .notEnrolled => 0x21 | .stationDisabled => 0x22 | .stationEjected => 0x23
  | .cleared => 0x24 | .aborted => 0x25 | .timeout => 0x26 | .nodeFault => 0x27 | .badFunction => 0x28
  | .malformed => 0x29 | .held => 0x2A

/-- What an ANSWER frame says (R8). -/
structure Answer where
  code     : AnswerCode
  kind     : Kind
  sequence : Byte
  position : Byte
  value    : BitVec 16
  extra    : Nat
  deriving DecidableEq, Repr

/-- The ANSWER frame to station n (R1, R8). -/
def answerFrame (n : StationId) (a : Answer) : Frame :=
  { source := 0, destination := stationField n, sequence := a.sequence, label := 0, kind := .answer
    payload := [byte a.code.code, byte a.kind.code, a.sequence, a.position] ++ bytes16 a.value ++ be16 a.extra }

/-- ARENA notices (01, ARENA notices). -/
inductive ArenaNotice where
  | phase | hold | unhold | disabled | enabled | ejected
  deriving DecidableEq, Repr

def ArenaNotice.code : ArenaNotice → Nat
  | .phase => 1 | .hold => 2 | .unhold => 3 | .disabled => 4 | .enabled => 5 | .ejected => 6

/-- An ARENA frame with the phase and remaining time current as it is composed (R1, R9). -/
def arenaFrame (notice : ArenaNotice) (destination : BitVec 6) (subject : Nat) (s : State) : Frame :=
  { source := 0, destination, sequence := 0, label := 0, kind := .arena
    payload := [byte notice.code, byte s.control.phase.code] ++ be32 s.control.timer ++ [byte subject] }

/-- Result codes (01, REPORT frames). -/
inductive Result where
  | ok | accepted | badArgument | locked | state | busy | overlap | unknownRequest | pairing | mapMismatch
  | allianceFull | notGoal
  deriving DecidableEq, Repr

def Result.code : Result → Nat
  | .ok => 0x00 | .accepted => 0x01 | .badArgument => 0x10 | .locked => 0x11 | .state => 0x12 | .busy => 0x13
  | .overlap => 0x14 | .unknownRequest => 0x15 | .pairing => 0x16 | .mapMismatch => 0x17 | .allianceFull => 0x18
  | .notGoal => 0x19

/-- Later results and notices on ML (01, REPORT frames). -/
inductive ReportName where
  | censusDone | directDone | start | phaseChange | stationChange | nodeChange | dispute | final | score | copy
  | areaDrop
  deriving DecidableEq, Repr

def ReportName.code : ReportName → Nat
  | .censusDone => 0x78 | .directDone => 0x79 | .start => 0x80 | .phaseChange => 0x81 | .stationChange => 0x82
  | .nodeChange => 0x83 | .dispute => 0x84 | .final => 0x85 | .score => 0x86 | .copy => 0x87 | .areaDrop => 0x88

/-- A REPORT frame (R1, R10). -/
def reportFrame (sequence label : Byte) (code : Byte) (tag : Byte) (result : Result) (data : List Byte) : Frame :=
  { source := 0, destination := 0, sequence, label, kind := .report
    payload := [code, tag, byte result.code] ++ data }

/-- A later result or a notice: sequence 0, label 0, result OK (R1, R10, R191). -/
def noticeFrame (name : ReportName) (tag : Byte) (data : List Byte) : Frame :=
  reportFrame 0 0 (byte name.code) tag .ok data

/-! ### The queue manager -/

def Area.enabled (a : Area) : Bool := decide (a.start < a.stop)

/-- R116. -/
def Area.capacity (a : Area) : Nat := a.stop - a.start

def Area.full (a : Area) : Bool := decide (a.capacity ≤ a.frames.length)

/-- A stored frame joins at the tail, and the peak follows the count (R121). -/
def Area.store (a : Area) (f : Frame) : Area :=
  { a with frames := a.frames ++ [f], peak := max a.peak (a.frames.length + 1) }

/-- A drop at the full area: the drop count rises and the drop-notified flag is set (R121, R122). -/
def Area.countDrop (a : Area) : Area := { a with drops := countUp Config.maxCount a.drops 1, notified := true }

def Area.servesConsumer (a : Area) (c : Consumer) : Bool := a.join.any fun j => decide (j.consumer = c)

/-- The area joined to a consumer and lane. -/
def State.joinedArea (s : State) (c : Consumer) (l : Lane) : Option AreaId :=
  s.areas.find? fun a => decide (a.join = some { consumer := c, lane := l })

/-- The area for an offered frame (R44, R120): the steer area when it is enabled and joined to the consumer, else the
pair's area, else the consumer's area of the first lane present. -/
def State.chooseArea (s : State) (c : Consumer) (l : Lane) (steer : Option AreaId) : Option AreaId :=
  match steer.filter fun a => (s.area a).enabled && (s.area a).servesConsumer c with
  | some a => some a
  | none =>
    match s.joinedArea c l with
    | some a => some a
    | none => (s.joinedArea c .urgent).or ((s.joinedArea c .normal).or (s.joinedArea c .bulk))

/-- The AREA_DROP notice (R11, R122). -/
def areaDropFrame (a : AreaId) (drops : Nat) : Frame := noticeFrame .areaDrop 0 (byte a.val :: be16 drops)

/-- Offers a REPORT frame to ML (R10, R120 to R122, R192). A drop sets the reports-lost flag; the first drop at an area
since its last clearing read offers an AREA_DROP notice, which may in turn be dropped at ML's own area. Each such
notice sets one more area's flag, and the second already goes to the area of the first, so three levels are enough. -/
def offerReportIn : Nat → Lane → Frame → State → State
  | 0, _, _, s => s.setReportsLost true
  | k + 1, l, f, s =>
    match s.chooseArea (.port .ml) l none with
    | none => s.setReportsLost true
    | some a =>
      if (s.area a).full then
        let s1 := (s.setArea a (s.area a).countDrop).setReportsLost true
        if (s.area a).notified then s1 else offerReportIn k .normal (areaDropFrame a (s1.area a).drops) s1
      else s.setArea a ((s.area a).store f)

def offerReport (l : Lane) (f : Frame) (s : State) : State := offerReportIn 3 l f s

/-- A frame is dropped at a full area that is not ML's (R121, R122). -/
def dropAt (a : AreaId) (s : State) : State :=
  let s1 := s.setArea a (s.area a).countDrop
  if (s.area a).notified then s1 else offerReport .normal (areaDropFrame a (s1.area a).drops) s1

/-- Offers a frame to an RL port (R55, R120, R121): stored, dropped at the full area, or dropped and counted at the
port for want of an area. -/
def offerRadio (k : RadioPort) (l : Lane) (steer : Option AreaId) (f : Frame) (s : State) : State :=
  match s.chooseArea (.port (.rl k)) l steer with
  | none => countDiscard (.rl k) s
  | some a => if (s.area a).full then dropAt a s else s.setArea a ((s.area a).store f)

/-! ### Answers and notices -/

/-- A notice to ML in lane NORMAL (R191). -/
def notice (name : ReportName) (data : List Byte) (s : State) : State := offerReport .normal (noticeFrame name 0 data) s

/-- A later result to ML in lane NORMAL (R190). -/
def laterResult (name : ReportName) (tag : Byte) (data : List Byte) (s : State) : State :=
  offerReport .normal (noticeFrame name tag data) s

/-- An answer on a named radio port, lane URGENT (R22, R56). -/
def answerOn (k : RadioPort) (n : StationId) (a : Answer) (s : State) : State :=
  offerRadio k .urgent none (answerFrame n a) s

/-- An answer to the station's recorded port, lane URGENT (R56). -/
def answer (n : StationId) (a : Answer) (s : State) : State :=
  match (s.station n).recordedPort with
  | none => s
  | some k => answerOn k n a s

/-- An ARENA notice to one station's recorded port, lane URGENT; a station without one is sent nothing (R33, R57). -/
def arenaTo (notice : ArenaNotice) (n : StationId) (s : State) : State :=
  match (s.station n).recordedPort with
  | none => s
  | some k => offerRadio k .urgent none (arenaFrame notice (stationField n) (num n) s) s

/-- STATION_CHANGE (R11, R16). -/
def stationChange (n : StationId) (old new : StationState) (s : State) : State :=
  notice .stationChange [byte (num n), byte old.code, byte new.code] s

/-- NODE_CHANGE (R11, R134). -/
def nodeChange (q : Position) (old new : NodeState) (e : ChainEnd) (s : State) : State :=
  notice .nodeChange [byte (num q), byte old.code, byte new.code, byte e.code] s

/-! ### The chain ends -/

/-- A message handed to an end goes on the line when the end is empty, and waits behind the others when not (R140). -/
def ChainSide.put (x : ChainSide) (m : ChainMessage) : ChainSide :=
  match x.onLine, x.waiting with
  | none, [] => { x with onLine := some m }
  | _, ws => { x with waiting := ws ++ [m] }

def sendOn (e : ChainEnd) (m : ChainMessage) (s : State) : State := s.setSide e ((s.side e).put m)

/-- A signal: every field after the type is 0 (message table of 01). -/
def signalMessage (type : ChainType) : ChainMessage := { type, position := 0, tag := 0, code := 0, value := 0 }

/-- PROBE or RESET_NODE to a position. -/
def addressedMessage (type : ChainType) (q : Position) : ChainMessage :=
  { type, position := num q, tag := 0, code := 0, value := 0 }

/-- A signal goes on CA, and on CB as well in RING mode (R140). -/
def sendSignal (type : ChainType) (s : State) : State :=
  let s1 := sendOn .ca (signalMessage type) s
  match s.chain.mode with
  | .line => s1
  | .ring => sendOn .cb (signalMessage type) s1

/-! ### Time -/

def Phase.isRunning : Phase → Bool
  | .running _ => true
  | _ => false

/-- A timer that may be stopped counts down to 0. -/
def countDown (n : Nat) (t : Option Nat) : Option Nat := t.map (· - n)

/-- The real-time timers count n ms (R19, R109, R142, R169, R179, R183). A timer at 0 has run out and waits for its expiry
to be taken. -/
def realTime (n : Nat) (s : State) : State :=
  { s with
    stations := { s.stations with records := s.stations.records.map fun r => { r with quiet := countDown n r.quiet } }
    chain := { s.chain with
      tags := s.chain.tags.map fun t => t.map fun r => { r with timer := r.timer - n }
      census := s.chain.census.map fun c => { c with timer := c.timer - n } }
    control := { s.control with silence := countDown n s.control.silence }
    tally := { s.tally with
      settle := s.tally.settle.map (countDown n)
      final := match s.tally.final with
        | .running r => .running (r - n)
        | x => x } }

/-- The refill of one credit tick (R102). -/
def Credit.tick (c : Credit) : Credit := { c with balances := c.balances.map fun b => min c.cap (b + c.rate) }

/-- The refill of k credit ticks, one after the other (R102). -/
def Credit.ticks (k : Nat) (c : Credit) : Credit :=
  if k = 0 then c else { c with balances := c.balances.map fun b => min c.cap (b + k * c.rate) }

/-- How many credit ticks fall within the next n ms of match time: one each time the accumulator has reached 10 ms before
their end (R160). A tick due at their very end has not fallen yet: it may still be taken before or after what else falls
there (notes/assumptions/25.md). -/
def PhaseControl.ticksWithin (c : PhaseControl) (n : Nat) : Nat :=
  (min Config.tickLength c.accumulator + n - 1) / Config.tickLength

/-- The match-time timers count n ms, and the credit ticks that fall within them refill the balances (R74, R102, R156,
R160). -/
def matchTime (n : Nat) (s : State) : State :=
  let ticks := s.control.ticksWithin n
  { s with
    claims := s.claims.map fun e =>
      { e with hold := e.hold.map fun h => { h with remaining := h.remaining - n }
               bar := e.bar.map fun b => { b with remaining := b.remaining - n } }
    credit := s.credit.ticks ticks
    control := { s.control with
      timer := s.control.timer - n
      accumulator := min Config.tickLength s.control.accumulator + n - Config.tickLength * ticks } }

/-- n ms of real time pass; they are match time too while a running phase is current (Conventions, Time). -/
def elapse (n : Nat) (s : State) : State :=
  if s.control.phase.isRunning then matchTime n (realTime n s) else realTime n s

end Sys2Proof.Machine
end

