-- ==== Sys2Proof/Machine/Flags.lean ====
section
/-! DEFINITION. The conditions that flags follow and under which the part takes a step of its own: the held flag
(R32), the takes (R124), the dequeue (R107) and the pending send (R147). -/

namespace Sys2Proof.Machine

/-- DRIVER or ENDGAME. -/
def Phase.isDriven : Phase → Bool
  | .running .driver | .running .endgame => true
  | _ => false

/-- PAUSED. -/
def Phase.isPaused : Phase → Bool
  | .paused _ _ => true
  | _ => false

/-- ENDED. -/
def Phase.isEnded : Phase → Bool
  | .ended _ => true
  | _ => false

/-- SETUP or ENDED. -/
def Phase.isBetween : Phase → Bool
  | .setup | .ended _ => true
  | _ => false

/-- SETUP, STAGED or ENDED. -/
def Phase.isIdle : Phase → Bool
  | .setup | .staged | .ended _ => true
  | _ => false

/-- AUTO, DRIVER or ENDGAME: element commands may move elements. -/
def Phase.isCommand : Phase → Bool
  | .running .auto | .running .driver | .running .endgame => true
  | _ => false

def Station.isLinked (r : Station) : Bool := decide (r.state = .linked)

def Station.isRobot (r : Station) : Bool := decide (r.kind = some .robot)

/-- The condition the held flag of station n is kept equal to (R32). -/
def State.holdCondition (s : State) (n : StationId) : Bool :=
  s.control.phase.isDriven &&
    match (s.station n).partner with
    | none => false
    | some m => !(s.station m).isLinked

/-- The area a consumer takes from next: the non-empty one of its highest lane (R107, R124). -/
def State.nextArea (s : State) (c : Consumer) : Option AreaId :=
  let filled := fun l => (s.joinedArea c l).filter fun a => !(s.area a).frames.isEmpty
  (filled .urgent).or ((filled .normal).or (filled .bulk))

/-- The area a transmitter takes from, when the conditions of R124 hold. -/
def State.takeReady (s : State) (p : Port) : Option AreaId :=
  if (s.port p).transmitter = none ∧ (s.port p).line = .up then s.nextArea (.port p) else none

/-- The lowest-numbered free tag (R107, R146). -/
def State.freeTag (s : State) : Option TagId := s.chain.tags.find? Option.isNone

/-- The tag and area of the next dequeue, when the conditions of R107 hold. -/
def State.dequeueReady (s : State) : Option (TagId × AreaId) :=
  if s.chain.halted = false ∧ s.chain.census = none ∧ s.chain.slot = none then
    match s.freeTag, s.nextArea .chain with
    | some t, some a => some (t, a)
    | _, _ => none
  else none

/-- The tag and command of the pending send, when the conditions of R147 hold. -/
def State.pendingReady (s : State) : Option (TagId × DirectCommand) :=
  if s.chain.census = none then
    match s.freeTag, s.chain.slot with
    | some t, some d => some (t, d)
    | _, _ => none
  else none

end Sys2Proof.Machine
end

