-- ==== Sys2Proof/Machine/Requests.lean ====
section
/-! DEFINITION. Taking a management request (R188, R189): the silence timer, the length check, the owner, the reply. -/

namespace Sys2Proof.Machine

abbrev Step := Host.Outcome State Fault Refusal

/-- What the block that owns a request makes of it: the state after its effect, the result, the data of the reply. -/
structure Owned where
  state  : State
  result : Result
  data   : List Byte

def done (s : State) (data : List Byte := []) : Owned := { state := s, result := .ok, data }

/-- A result other than OK and ACCEPTED: nothing changed, no data (R10, R189). -/
def refuse (r : Result) (s : State) : Owned := { state := s, result := r, data := [] }

/-- Every MGMT frame that passes the port gate restarts the silence timer; with limit 0 it stays stopped (R169). -/
def restartSilence (s : State) : State :=
  { s with control := { s.control with
      silence := if s.control.silenceLimit = 0 then none else some s.control.silenceLimit } }

/-- A MGMT frame has arrived and passed the port gate: the receive state is IDLE and the silence timer restarted. -/
def mgmtArrives (s : State) : State := restartSilence (receiveIdle .ml s)

/-- The reply to a request (R189). -/
def reply (code : Nat) (r : Request) (o : Owned) : State :=
  offerReport .normal (reportFrame r.sequence 0 (byte code) r.tag o.result o.data) o.state

/-- R188: a frame too long is no frame (R6); else the silence timer, the length of the arguments, the owner's checks and
effect, the reply. -/
def takeRequest (code : Nat) (r : Request) (owner : State → Owned) (s : State) : Step :=
  if 46 < r.args.length then .next (countDiscard .ml (receiveIdle .ml s))
  else if r.args.length < (argumentLength code).getD 0 then .next (reply code r (refuse .badArgument (mgmtArrives s)))
  else .next (reply code r (owner (mgmtArrives s)))

end Sys2Proof.Machine
end

