-- ==== Sys2Proof/Machine/ArenaMap.lean ====
section
/-! DEFINITION. The arena map (04_the_arena_map.md): windows, decode, the hidden test, the check at STAGE, and the
requests MAP_WINDOW, HIDE, PARTNER, PROFILE and READ_MAP. -/

namespace Sys2Proof.Machine

/-- R59. -/
def Window.contains (w : Window) (q : Position) : Bool :=
  decide (w.base ≤ w.limit) && decide (w.base ≤ num q) && decide (num q ≤ w.limit)

inductive DecodeClass where
  | home | foreign | shared | unmapped | hidden
  deriving DecidableEq, Repr

def DecodeClass.code : DecodeClass → Nat
  | .home => 0 | .foreign => 1 | .shared => 2 | .unmapped => 3 | .hidden => 4

/-- Steps 2 to 5 of R60: the class the windows give position q for alliance a. -/
def ArenaMap.windowClass (m : ArenaMap) (a : Alliance) (q : Position) : DecodeClass :=
  if (m.homes.get a).contains q then .home
  else if m.homes.items.any (·.contains q) then .foreign
  else if m.shared.contains q then .shared
  else .unmapped

/-- The position before q (q − 1 for every q but 1). -/
def leadOf (q : Position) : Position := ⟨q.val - 1, by omega⟩

def ArenaMap.isPartner (m : ArenaMap) (q : Position) : Bool := m.partners.get q

/-- q leads when q + 1 is a declared partner. -/
def ArenaMap.isLead (m : ArenaMap) (q : Position) : Bool :=
  if h : q.val + 1 < 32 then m.partners.get ⟨q.val + 1, h⟩ else false

/-- The position whose claim entry governs q: its lead for a partner, itself otherwise (R61). -/
def ArenaMap.effective (m : ArenaMap) (q : Position) : Position := if m.isPartner q then leadOf q else q

/-- The hidden test (R61). -/
def ArenaMap.hidden (m : ArenaMap) (q : Position) : Bool := m.hideSet.get q || m.hideSet.get (m.effective q)

/-- The decode of position q for a robot of alliance a (R60, R61). -/
def ArenaMap.decode (m : ArenaMap) (a : Alliance) (q : Position) : DecodeClass :=
  if m.hidden q then .hidden else m.windowClass a (m.effective q)

/-- Role code: 0 ordinary, 1 lead, 2 partner (R70, R97). -/
def ArenaMap.role (m : ArenaMap) (q : Position) : Nat := if m.isPartner q then 2 else if m.isLead q then 1 else 0

/-- The map check at STAGE: every declared partner and its lead have one window class for every alliance (R71). -/
def ArenaMap.checkPairs (m : ArenaMap) : Bool :=
  (List.finRange 32).all fun q =>
    !m.isPartner q || (List.finRange 4).all fun a => decide (m.windowClass a q = m.windowClass a (leadOf q))

def State.setMap (s : State) (m : ArenaMap) : State := { s with map := m }

/-- R63. -/
def ownMapWindow (r : Request) (s : State) : Owned :=
  let w := byteAt r.args 0
  let x : Window := { base := byteAt r.args 1, limit := byteAt r.args 2 }
  if s.control.phase ≠ .setup then refuse .locked s
  else if 4 < w ∨ x.base < 1 ∨ 32 < x.base ∨ 32 < x.limit then refuse .badArgument s
  else match ofIndex 4 w with
    | some a => done (s.setMap { s.map with homes := s.map.homes.set a x })
    | none => done (s.setMap { s.map with shared := x })

def execMapWindow (r : Request) (s : State) : Step := takeRequest 0x30 r (ownMapWindow r) s

/-- R64. -/
def ownHide (r : Request) (s : State) : Owned :=
  match ofNum 32 (byteAt r.args 0), flagOf (byteAt r.args 1) with
  | some q, some b =>
    let m := { s.map with hideSet := s.map.hideSet.set q b }
    done (s.setMap m) (setBytes m.hideSet)
  | _, _ => refuse .badArgument s

def execHide (r : Request) (s : State) : Step := takeRequest 0x31 r (ownHide r) s

def ArenaMap.partnerCount (m : ArenaMap) : Nat := m.partners.count id

/-- The data of every OK reply to PARTNER (R66). -/
def partnerData (m : ArenaMap) : List Byte := setBytes m.partners ++ [byte m.partnerCount]

/-- R66: action 1 declares q. -/
def declarePartner (q : Position) (s : State) : Owned :=
  if num q = 1 then refuse .badArgument s
  else if s.map.isPartner q then done s (partnerData s.map)
  else if s.map.isPartner (leadOf q) ∨ s.map.isLead q ∨ Config.maxPartners ≤ s.map.partnerCount then
    refuse .badArgument s
  else
    let m := { s.map with partners := s.map.partners.set q true }
    done (s.setMap m) (partnerData m)

/-- R67: action 0 removes the declaration of q. -/
def removePartner (q : Position) (s : State) : Owned :=
  if num q = 1 then refuse .badArgument s
  else if s.map.isPartner q then
    let m := { s.map with partners := s.map.partners.set q false }
    done (s.setMap m) (partnerData m)
  else refuse .state s

/-- Request 0x32 with either action (R66, R67). -/
def ownPartner (r : Request) (s : State) : Owned :=
  if s.control.phase ≠ .setup then refuse .locked s
  else match flagOf (byteAt r.args 1), ofNum 32 (byteAt r.args 0) with
    | some true, some q => declarePartner q s
    | some false, some q => removePartner q s
    | _, _ => refuse .badArgument s

def execPartner (r : Request) (s : State) : Step := takeRequest 0x32 r (ownPartner r) s

def execPartnerRemove (r : Request) (s : State) : Step := takeRequest 0x32 r (ownPartner r) s

/-- R69. -/
def ownProfile (r : Request) (s : State) : Owned :=
  let x : Profile :=
    { maxHold := wordAt r.args 1, barTime := wordAt r.args 3, costLow := byteAt r.args 5, costHigh := byteAt r.args 6 }
  if !s.control.phase.isIdle then refuse .locked s
  else match ofNum 32 (byteAt r.args 0) with
    | none => refuse .badArgument s
    | some q =>
      if x.maxHold < 100 ∨ 60000 < x.maxHold ∨ 10000 < x.barTime ∨ x.costLow < 1 ∨ 64 < x.costLow
          ∨ x.costHigh < 1 ∨ 64 < x.costHigh then refuse .badArgument s
      else done (s.setMap { s.map with profiles := s.map.profiles.set q x })

def execProfile (r : Request) (s : State) : Step := takeRequest 0x33 r (ownProfile r) s

def Window.bytes (w : Window) : List Byte := [byte w.base, byte w.limit]

/-- Bytes 0–18 of READ_MAP (R70). -/
def mapData (m : ArenaMap) : List Byte :=
  m.homes.items.flatMap Window.bytes ++ m.shared.bytes ++ setBytes m.hideSet ++ partnerData m

/-- Bytes 19–29 of READ_MAP: the named position (R70). -/
def positionData (m : ArenaMap) (q : Position) : List Byte :=
  let x := m.profiles.get q
  be16 x.maxHold ++ be16 x.barTime ++ [byte x.costLow, byte x.costHigh, byte (m.role q)]
    ++ (List.finRange 4).map fun a => byte (m.decode a q).code

/-- R70. -/
def ownReadMap (r : Request) (s : State) : Owned :=
  let k := byteAt r.args 0
  if k = 0 then done s (mapData s.map)
  else match ofNum 32 k with
    | none => refuse .badArgument s
    | some q => done s (mapData s.map ++ positionData s.map q)

def execReadMap (r : Request) (s : State) : Step := takeRequest 0x34 r (ownReadMap r) s

end Sys2Proof.Machine
end

