-- ==== Sys2Proof/Machine/Interlock.lean ====
section
/-! DEFINITION. What one station's change does to the other blocks: the hand-over of claim entries (R85 to R90), the
hold interlock (R32, R33), the departure from LINKED (R30) and the changes of a station's state (R16, R20, R25 to R29). -/

namespace Sys2Proof.Machine

/-! ### Claim entries -/

/-- The table of R76. -/
def grantedHold (requested maxHold : Nat) : Nat :=
  if requested = 0 then maxHold
  else if requested < Config.minHold then Config.minHold
  else if requested ≤ maxHold then requested
  else maxHold

/-- An answer or notice of the claim table (R78): value 0. -/
def claimAnswer (code : AnswerCode) (kind : Kind) (sequence position : Byte) (extra : Nat) : Answer :=
  { code, kind, sequence, position, value := 0, extra }

/-- GRANTED_LATER and EXPIRED answer no frame: kind CLAIM, sequence 0, the entry's position (R8, R78). -/
def claimNotice (code : AnswerCode) (q : Position) (extra : Nat) : Answer :=
  claimAnswer code .claim 0 (byte (num q)) extra

/-- Whether a hand-over of the entry may choose the waiter: its alliance is not barred (R87). -/
def State.eligible (s : State) (e : ClaimEntry) (w : Waiter) : Bool :=
  e.bar.all fun b => decide ((s.station w.station).alliance ≠ b.alliance)

/-- The hand-over of the FREE entry q to its oldest eligible waiter (R87, R88). -/
def handOver (q : Position) (s : State) : State :=
  let e := s.claim q
  match e.waiters.find? (s.eligible e) with
  | none => s
  | some w =>
    let h := grantedHold w.requested (s.profile q).maxHold
    answer w.station (claimNotice .grantedLater q h)
      (s.setClaim q { e with hold := some { holder := w.station, remaining := h }
                             waiters := e.waiters.eraseP (s.eligible e) })

/-- The entry after its holder has given it back or its hold has expired: FREE, and barred to the holder's alliance for
the bar time of the profile; a bar time of 0 leaves no bar (R85). -/
def barredEntry (s : State) (q : Position) (holder : StationId) : ClaimEntry :=
  let t := (s.profile q).barTime
  { s.claim q with
    hold := none
    bar := if t = 0 then none else some { alliance := (s.station holder).alliance, remaining := t } }

/-- Station n leaves every waiter list (R90). -/
def removeWaits (n : StationId) (s : State) : State :=
  { s with claims := s.claims.map fun e => { e with waiters := e.waiters.filter fun w => decide (w.station ≠ n) } }

def ClaimEntry.heldBy (e : ClaimEntry) (n : StationId) : Bool := e.hold.any fun h => decide (h.holder = n)

/-- The entry loses its holder n, with no bar set and no notice to n, and is handed over (R89). -/
def removeHold (n : StationId) (s : State) (q : Position) : State :=
  if (s.claim q).heldBy n then handOver q (s.setClaim q { s.claim q with hold := none }) else s

/-- The claims and the wait of a station that leaves LINKED: the wait first, then the held entries, the lower position
first (R89, R90). -/
def removeClaims (n : StationId) (s : State) : State :=
  (List.finRange 32).foldl (removeHold n) (removeWaits n s)

/-! ### The departure from LINKED -/

/-- The station's ELEMENT frames leave every area joined to CHAIN, without an answer (R30). -/
def purgeCommands (n : StationId) (s : State) : State :=
  { s with areas := s.areas.map fun a =>
      if a.servesConsumer .chain then
        { a with frames := a.frames.filter fun f => !(decide (f.kind = .element) && decide (f.source = stationField n)) }
      else a }

/-- The station is cleared from the tag record (R30). -/
def TagRecord.clearStation (n : StationId) (r : TagRecord) : TagRecord :=
  match r.origin with
  | .robot m sequence => if m = some n then { r with origin := .robot none sequence } else r
  | .direct _ => r

def clearTags (n : StationId) (s : State) : State :=
  { s with chain := { s.chain with tags := s.chain.tags.map fun t => t.map (TagRecord.clearStation n) } }

/-- The effects on the other blocks of station n's departure from LINKED (R30). -/
def leaveLinked (n : StationId) (s : State) : State := clearTags n (purgeCommands n (removeClaims n s))

/-! ### The hold interlock -/

/-- The held flag of robot n is evaluated; HOLD or UNHOLD is sent where it changes (R32, R33). -/
def evaluateHold (s : State) (n : StationId) : State :=
  let new := s.holdCondition n
  let old := (s.station n).held
  if !(s.station n).isRobot || old == new then s
  else
    let s1 := s.setStation n { s.station n with held := new }
    if new then arenaTo .hold n s1
    else if s.control.phase.isDriven then arenaTo .unhold n s1 else s1

/-- Every ROBOT record whose partner field names station m is evaluated (R32). -/
def evaluatePartners (m : StationId) (s : State) : State :=
  (List.finRange 32).foldl (fun s n => if (s.station n).partner = some m then evaluateHold s n else s) s

/-- Every ROBOT record is evaluated: DRIVER or ENDGAME entered (R32). -/
def evaluateAll (s : State) : State := (List.finRange 32).foldl evaluateHold s

/-- Any other phase entered: every held flag is false, without a notice (R32). -/
def clearHeld (s : State) : State :=
  { s with stations := { s.stations with records := s.stations.records.map fun r => { r with held := false } } }

/-! ### Changes of a station's state -/

/-- Station n's record becomes x, in another state; from LINKED this is a departure. The ARENA notice, if the change has
one, the STATION_CHANGE notice and the hold evaluation of its partners follow, in this order (R16, R26, R30; the order
among them is notes/assumptions/10.md). -/
def changeStation (n : StationId) (x : Station) (arena : Option ArenaNotice) (s : State) : State :=
  let old := s.station n
  let s1 := s.setStation n x
  let s2 := if old.isLinked then leaveLinked n s1 else s1
  let s3 := match arena with
    | some a => arenaTo a n s2
    | none => s2
  evaluatePartners n (stationChange n old.state x.state s3)

/-- ENROLLED, LINKED or STALE to DISABLED (R26, R27). -/
def disableStation (n : StationId) (s : State) : State :=
  changeStation n { s.station n with state := .disabled } (some .disabled) s

/-- The verdict DISABLE changes only an ENROLLED, LINKED or STALE record (R27). -/
def disableByVerdict (n : StationId) (s : State) : State :=
  match (s.station n).state with
  | .enrolled | .linked | .stale => disableStation n s
  | .vacant | .disabled | .ejected => s

end Sys2Proof.Machine
end

