-- ==== Sys2Proof/Machine/Stations.lean ====
section
/-! DEFINITION. The station table (02_stations.md): the JOIN and BEACON handlers, the quiet expiry, the pairing
condition, and the requests ENROL, UNENROL, DISABLE, ENABLE, EJECT, READ_STATION and STALE_LIMIT. -/

namespace Sys2Proof.Machine

/-! ### Linking -/

/-- Station n is linked on port k (R21, R23). -/
def linkRecord (n : StationId) (k : RadioPort) (s : State) : State :=
  s.setStation n { s.station n with state := .linked, recordedPort := some k }

/-- What follows a link from state old: STATION_CHANGE, the hold evaluation of the partners, and HOLD to a robot that is
linked while held (R21, R23, R32). -/
def afterLink (n : StationId) (old : StationState) (s : State) : State :=
  let s1 := evaluatePartners n (stationChange n old .linked s)
  if (s1.station n).held && (s1.station n).isRobot then arenaTo .hold n s1 else s1

/-- An answer to a JOIN: position 0, value 0, extra the phase code on JOIN_OK (R8, R22). -/
def joinAnswer (code : AnswerCode) (sequence : Byte) (s : State) : Answer :=
  { code, kind := .join, sequence, position := 0, value := 0
    extra := if code = .joinOk then s.control.phase.code else 0 }

/-- An answer to a JOIN goes out on the JOIN's ingress port (R22). -/
def answerJoin (k : RadioPort) (n : StationId) (code : AnswerCode) (sequence : Byte) (s : State) : State :=
  answerOn k n (joinAnswer code sequence s) s

/-- Whether a JOIN's team and claimed kind match the record (R21). -/
def joinMatches (x : Station) (payload : List Byte) : Bool :=
  let team := wordAt payload 0
  decide (1 ≤ team) && decide (team ≤ 9999) && decide (team = x.team)
    && (match StationKind.ofCode (byteAt payload 2) with
        | some kind => decide (x.kind = some kind)
        | none => false)

/-- The JOIN handler (R21). -/
def handleJoin (k : RadioPort) (n : StationId) (f : FrameBody) (s : State) : State :=
  if f.payload.length < 3 then s
  else
    let x := s.station n
    match x.state with
    | .vacant => s
    | .enrolled | .stale =>
      if joinMatches x f.payload then
        afterLink n x.state (answerJoin k n .joinOk f.sequence (linkRecord n k s))
      else answerJoin k n .teamMismatch f.sequence s
    | .linked => answerJoin k n .joinOk f.sequence (linkRecord n k s)
    | .disabled => answerJoin k n .stationDisabled f.sequence s
    | .ejected => answerJoin k n .stationEjected f.sequence s

/-- The BEACON handler (R23). -/
def handleBeacon (k : RadioPort) (n : StationId) (s : State) : State :=
  match (s.station n).state with
  | .stale => afterLink n .stale (linkRecord n k s)
  | .linked => linkRecord n k s
  | .vacant | .enrolled | .disabled | .ejected => s

/-! ### Quiet timing -/

/-- Step 3 of R17: the quiet timer is restarted at the stale limit in force (R19). -/
def restartQuiet (n : StationId) (s : State) : State :=
  s.setStation n { s.station n with quiet := some s.stations.staleLimit }

/-- The quiet timer has run out: it is stopped, and a LINKED station becomes STALE (R19, R20). -/
def quietExpired (n : StationId) (s : State) : State :=
  let x := { s.station n with quiet := none }
  if x.isLinked then changeStation n { x with state := .stale } none s else s.setStation n x

def execQuietExpiry (n : StationId) (s : State) : Step :=
  match (s.station n).quiet with
  | none => .next s
  | some r => .next (quietExpired n (elapse r s))

/-! ### Pairing -/

/-- The pairing condition for the record of n (R34). -/
def State.pairingHolds (s : State) (n : StationId) : Bool :=
  let x := s.station n
  match x.state, x.partner with
  | .vacant, _ | _, none => true
  | _, some m =>
    let y := s.station m
    decide (y.state ≠ .vacant) && decide (y.kind ≠ x.kind) && decide (y.alliance = x.alliance) && decide (y.partner = some n)

/-- The pairing condition holds for every record (R34). -/
def State.pairingOk (s : State) : Bool := (List.finRange 32).all s.pairingHolds

/-! ### Requests -/

/-- How many other records that are not VACANT hold this alliance and kind (R24 check 4). -/
def State.teamMates (s : State) (n : StationId) (a : Alliance) (kind : StationKind) : Nat :=
  (List.finRange 32).countP fun m =>
    decide (m ≠ n) && decide ((s.station m).state ≠ .vacant) && decide ((s.station m).alliance = a)
      && decide ((s.station m).kind = some kind)

/-- ENROL writes the record, and a VACANT one becomes ENROLLED (R24 step 5). -/
def enrol (n : StationId) (kind : StationKind) (a : Alliance) (team : Nat) (partner : Option StationId) (s : State) : State :=
  let old := s.station n
  let s1 := s.setStation n { old with state := .enrolled, kind := some kind, alliance := a, team, partner }
  if old.state = .vacant then evaluatePartners n (stationChange n .vacant .enrolled s1) else s1

/-- The partner argument 0–32; 0 names no station. -/
def partnerOf (k : Nat) : Option (Option StationId) :=
  if k = 0 then some none else (ofNum 32 k).map some

/-- R24. -/
def ownEnrol (r : Request) (s : State) : Owned :=
  let team := wordAt r.args 3
  if s.control.phase ≠ .setup then refuse .locked s
  else match ofNum 32 (byteAt r.args 0), StationKind.ofCode (byteAt r.args 1), ofIndex 4 (byteAt r.args 2),
      partnerOf (byteAt r.args 5) with
    | some n, some kind, some a, some partner =>
      if team < 1 ∨ 9999 < team ∨ partner = some n then refuse .badArgument s
      else match (s.station n).state with
        | .linked | .stale | .disabled | .ejected => refuse .state s
        | .vacant | .enrolled =>
          if 4 ≤ s.teamMates n a kind then refuse .allianceFull s
          else done (enrol n kind a team partner s)
    | _, _, _, _ => refuse .badArgument s

def execEnrol (r : Request) (s : State) : Step := takeRequest 0x10 r (ownEnrol r) s

/-- R25. -/
def ownUnenrol (r : Request) (s : State) : Owned :=
  if !s.control.phase.isBetween then refuse .locked s
  else match ofNum 32 (byteAt r.args 0) with
    | none => refuse .badArgument s
    | some n =>
      if (s.station n).state = .vacant then refuse .state s
      else done (changeStation n .vacant none s)

def execUnenrol (r : Request) (s : State) : Step := takeRequest 0x11 r (ownUnenrol r) s

/-- R26. -/
def ownDisable (r : Request) (s : State) : Owned :=
  match ofNum 32 (byteAt r.args 0) with
  | none => refuse .badArgument s
  | some n =>
    match (s.station n).state with
    | .vacant | .disabled | .ejected => refuse .state s
    | .enrolled | .linked | .stale => done (disableStation n s)

def execDisable (r : Request) (s : State) : Step := takeRequest 0x12 r (ownDisable r) s

/-- R28. -/
def ownEnable (r : Request) (s : State) : Owned :=
  match ofNum 32 (byteAt r.args 0) with
  | none => refuse .badArgument s
  | some n =>
    if (s.station n).state = .disabled then
      done (changeStation n { s.station n with state := .stale } (some .enabled) s)
    else refuse .state s

def execEnable (r : Request) (s : State) : Step := takeRequest 0x13 r (ownEnable r) s

/-- R29. -/
def ownEject (r : Request) (s : State) : Owned :=
  if s.control.phase = .setup then refuse .locked s
  else match ofNum 32 (byteAt r.args 0) with
    | none => refuse .badArgument s
    | some n =>
      match (s.station n).state with
      | .vacant | .ejected => refuse .state s
      | .enrolled | .linked | .stale | .disabled =>
        done (changeStation n { s.station n with state := .ejected } (some .ejected) s)

def execEject (r : Request) (s : State) : Step := takeRequest 0x14 r (ownEject r) s

/-- The 12 data bytes of READ_STATION (R36). -/
def stationData (x : Station) (staleLimit : Nat) : List Byte :=
  [byte x.state.code, byte (x.kind.elim 0 StationKind.code), byte x.alliance.val] ++ be16 x.team
    ++ [byte (x.partner.elim 0 num), byte (x.recordedPort.elim 0xFF fun k => (Port.rl k).code), byte x.held.toNat]
    ++ be16 (x.quiet.getD 0) ++ be16 staleLimit

/-- R36. -/
def ownReadStation (r : Request) (s : State) : Owned :=
  match ofNum 32 (byteAt r.args 0) with
  | none => refuse .badArgument s
  | some n => done s (stationData (s.station n) s.stations.staleLimit)

def execReadStation (r : Request) (s : State) : Step := takeRequest 0x15 r (ownReadStation r) s

/-- R35. -/
def ownStaleLimit (r : Request) (s : State) : Owned :=
  let limit := wordAt r.args 0
  if limit < 200 ∨ 5000 < limit then refuse .badArgument s
  else done { s with stations := { s.stations with staleLimit := limit } }

def execStaleLimit (r : Request) (s : State) : Step := takeRequest 0x16 r (ownStaleLimit r) s

end Sys2Proof.Machine
end

