-- ==== Sys2Proof/Machine/Classifier.lean ====
section
/-! DEFINITION. The classifier (03_classification_and_routing.md): the phase gate, the rule table and its search, the
PILOT and TELEM router, and the requests WRITE_RULE, READ_RULE, RULE_COUNT and KIND_DEFAULT. -/

namespace Sys2Proof.Machine

/-! ### The phase gate -/

/-- R40. -/
def phaseAdmits (kind : Kind) (ph : Phase) : Bool :=
  match kind with
  | .pilot => ph.isDriven
  | .element | .claim => ph.isCommand
  | .release => ph.isRunning || ph.isPaused
  | _ => true

/-- Payload byte 0, or 0 when the payload is empty (R40, R45). -/
def positionByte (f : FrameBody) : Byte := f.payload.headD 0

/-- The refusal of a station frame by code PHASE or RULE: ELEMENT, CLAIM and RELEASE are answered (R40, R45). -/
def refuseFrame (code : AnswerCode) (n : StationId) (f : Frame) (s : State) : State :=
  match f.kind with
  | .element | .claim | .release =>
    answer n { code, kind := f.kind, sequence := f.sequence, position := positionByte f.toFrameBody, value := 0, extra := 0 } s
  | _ => s

/-! ### The rule table -/

def SourceClass.admits : SourceClass → Option StationKind → Bool
  | .any, _ => true
  | .robot, k => decide (k = some .robot)
  | .driver, k => decide (k = some .driver)

/-- R41. -/
def Rule.admits (u : Rule) (k : RadioPort) (n : StationId) (f : Frame) (s : State) : Bool :=
  let x := s.station n
  u.kinds.getLsbD (f.kind.code - 1) && u.sourceClass.admits x.kind && u.alliances.getLsbD x.alliance.val
    && decide (f.source &&& u.stationMask = u.stationValue &&& u.stationMask)
    && u.ports.getLsbD (Port.rl k).code && u.phases.getLsbD s.control.phase.code

/-- The first active rule that matches (R42). -/
def State.searchRules (s : State) (k : RadioPort) (n : StationId) (f : Frame) : Option RuleIx :=
  (List.finRange 48).find? fun i => decide (i.val < s.classifier.active) && (s.rule i).admits k n f s

/-- The default table's entry for a station kind (R42). -/
def Classifier.defaultFor (c : Classifier) (kind : Kind) : KindDefault :=
  match ofNum 7 kind.code with
  | some i => c.defaults.get i
  | none => .pass

/-- The rule's hit count is raised by 1 (R42). -/
def countHit (i : RuleIx) (s : State) : State :=
  s.setRule i { s.rule i with hits := countUp Config.maxCount (s.rule i).hits 1 }

/-- The COPY notice of an arriving frame (R11, R43). -/
def copyFrame (label : Byte) (k : RadioPort) (f : Frame) : Frame :=
  let shown := f.wire.take Config.copyBytes
  reportFrame 0 label (byte ReportName.copy.code) 0 .ok ([byte (Port.rl k).code, byte shown.length] ++ shown)

/-! ### PILOT and TELEM: forward to the partner -/

/-- The station a PILOT or TELEM frame is forwarded to, when the conditions of R54 hold. -/
def State.forwardTo (s : State) (n : StationId) (f : Frame) : Option StationId :=
  match stationOf f.destination with
  | none => none
  | some m =>
    let y := s.station m
    let other : StationKind := if f.kind = .pilot then .robot else .driver
    if (s.station n).partner = some m ∧ y.isLinked = true ∧ y.kind = some other ∧ y.partner = some n then some m else none

/-- The router (R54, R55): to the partner's recorded port, lane NORMAL for PILOT and BULK for TELEM, or dropped. -/
def handleForward (n : StationId) (f : Frame) (steer : Option AreaId) (s : State) : State :=
  match (s.forwardTo n f).bind fun m => (s.station m).recordedPort with
  | none => s
  | some k => offerRadio k (if f.kind = .pilot then .normal else .bulk) steer f s

/-! ### Requests -/

/-- The rule of the 12 bytes of the rule layout, and its index; none where a field is outside its encoding. -/
def ruleOf (bs : List Byte) : Option (RuleIx × Rule) :=
  match ofIndex 48 (byteAt bs 0), SourceClass.ofCode (byteAt bs 3), Verdict.ofCode (byteAt bs 9), ofIndex 12 (byteAt bs 10) with
  | some i, some sourceClass, some verdict, some steerArea =>
    if 2048 ≤ wordAt bs 1 ∨ 16 ≤ byteAt bs 4 ∨ 64 ≤ byteAt bs 5 ∨ 64 ≤ byteAt bs 6 ∨ 32 ≤ byteAt bs 7 then none
    else some (i,
      { kinds := BitVec.ofNat 11 (wordAt bs 1), sourceClass, alliances := BitVec.ofNat 4 (byteAt bs 4)
        stationValue := BitVec.ofNat 6 (byteAt bs 5), stationMask := BitVec.ofNat 6 (byteAt bs 6)
        ports := BitVec.ofNat 5 (byteAt bs 7), phases := BitVec.ofNat 8 (byteAt bs 8), verdict, steerArea
        label := bs.getD 11 0, hits := 0 })
  | _, _, _, _ => none

/-- The 12 bytes of the rule layout. -/
def ruleBytes (i : RuleIx) (u : Rule) : List Byte :=
  [byte i.val] ++ be16 u.kinds.toNat
    ++ [byte u.sourceClass.code, byte u.alliances.toNat, byte u.stationValue.toNat, byte u.stationMask.toNat,
        byte u.ports.toNat, byte u.phases.toNat, byte u.verdict.code, byte u.steerArea.val, u.label]

/-- R48. -/
def ownWriteRule (r : Request) (s : State) : Owned :=
  if !s.control.phase.isIdle then refuse .locked s
  else match ruleOf r.args with
    | none => refuse .badArgument s
    | some (i, u) => done (s.setRule i u)

def execWriteRule (r : Request) (s : State) : Step := takeRequest 0x20 r (ownWriteRule r) s

/-- R49. -/
def ownReadRule (r : Request) (s : State) : Owned :=
  match ofIndex 48 (byteAt r.args 0), flagOf (byteAt r.args 1) with
  | some i, some clear =>
    let u := s.rule i
    let data := ruleBytes i u ++ be16 u.hits ++ [byte s.classifier.active]
    done (if clear then s.setRule i { u with hits := 0 } else s) data
  | _, _ => refuse .badArgument s

def execReadRule (r : Request) (s : State) : Step := takeRequest 0x21 r (ownReadRule r) s

/-- R50. -/
def ownRuleCount (r : Request) (s : State) : Owned :=
  let n := byteAt r.args 0
  if !s.control.phase.isIdle then refuse .locked s
  else if 48 < n then refuse .badArgument s
  else done { s with classifier := { s.classifier with active := n } }

def execRuleCount (r : Request) (s : State) : Step := takeRequest 0x22 r (ownRuleCount r) s

/-- R51. -/
def ownKindDefault (r : Request) (s : State) : Owned :=
  if !s.control.phase.isIdle then refuse .locked s
  else match ofNum 7 (byteAt r.args 0), KindDefault.ofCode (byteAt r.args 1) with
    | some i, some d =>
      let t := s.classifier.defaults.set i d
      done { s with classifier := { s.classifier with defaults := t } } (t.items.map fun x => byte x.code)
    | _, _ => refuse .badArgument s

def execKindDefault (r : Request) (s : State) : Step := takeRequest 0x23 r (ownKindDefault r) s

end Sys2Proof.Machine
end

