-- ==== Sys2Proof/Machine/Claims.lean ====
section
/-! DEFINITION. The claim table (05_element_claims.md): the CLAIM and RELEASE handlers, the hold and bar expiries, the
clearing on ENDED and READ_CLAIM. -/

namespace Sys2Proof.Machine

/-- The claim count of station n: the entries it holds. -/
def State.claimCount (s : State) (n : StationId) : Nat := s.claims.count fun e => e.heldBy n

def ClaimEntry.waits (e : ClaimEntry) (n : StationId) : Bool := e.waiters.any fun w => decide (w.station = n)

/-- The 1-based place of station n in the waiter list (R77). -/
def ClaimEntry.place (e : ClaimEntry) (n : StationId) : Nat := (e.waiters.findIdx fun w => decide (w.station = n)) + 1

/-- Whether station n stands in some waiter list. -/
def State.waitsAnywhere (s : State) (n : StationId) : Bool := s.claims.items.any fun e => e.waits n

/-- An answer to the CLAIM or RELEASE frame f (R78). -/
def answerClaim (kind : Kind) (n : StationId) (f : FrameBody) (position : Byte) (code : AnswerCode) (extra : Nat)
    (s : State) : State :=
  answer n (claimAnswer code kind f.sequence position extra) s

/-- Steps 6 to 12 of R75, once the element may be claimed. A bar that has run down to 0 and whose expiry has not been taken
still bars: R79 answers a CLAIM taken ahead of that expiry BARRED, where check 10 of R75 reads "above 0" (the model's
reading, notes/assumptions/28.md). -/
def judgeClaim (n : StationId) (f : FrameBody) (q : Position) (s : State) : State :=
  let e := s.claim q
  let say := fun code extra => answerClaim .claim n f (positionByte f) code extra
  let requested := wordAt f.payload 1
  match e.hold with
  | some h =>
    if h.holder = n then say .granted h.remaining s
    else if e.waits n then say .queued (e.place n) s
    else if s.waitsAnywhere n then say .waiting 0 s
    else if Config.maxClaims ≤ s.claimCount n then say .holdLimit 0 s
    else if Config.maxWaiters ≤ e.waiters.length then say .listFull 0 s
    else
      let e1 := { e with waiters := e.waiters ++ [{ station := n, requested }] }
      say .queued (e.waiters.length + 1) (s.setClaim q e1)
  | none =>
    if e.waits n then say .queued (e.place n) s
    else if s.waitsAnywhere n then say .waiting 0 s
    else if Config.maxClaims ≤ s.claimCount n then say .holdLimit 0 s
    else if e.bar.any fun b => decide (b.alliance = (s.station n).alliance) then say .barred 0 s
    else
      let h := grantedHold requested (s.profile q).maxHold
      say .granted h (s.setClaim q { e with hold := some { holder := n, remaining := h } })

/-- The CLAIM handler (R75 to R77). -/
def handleClaim (n : StationId) (f : FrameBody) (s : State) : State :=
  let say := fun position code => answerClaim .claim n f position code 0 s
  if f.payload.length < 3 then say 0 .malformed
  else match positionOf (positionByte f) with
    | none => say (positionByte f) .malformed
    | some q =>
      if (s.station n).held then say (positionByte f) .held
      else match s.map.decode (s.station n).alliance q with
        | .hidden => say (positionByte f) .hidden
        | .foreign => say (positionByte f) .foreign
        | .unmapped => say (positionByte f) .unmapped
        | .home => say (positionByte f) .notShared
        | .shared =>
          if s.map.isPartner q then say (positionByte f) .partner
          else if (s.node q).state ≠ .ready then say (positionByte f) .nodeDown
          else judgeClaim n f q s

/-- The RELEASE handler (R80, R81). -/
def handleRelease (n : StationId) (f : FrameBody) (s : State) : State :=
  let say := fun position code s => answerClaim .release n f position code 0 s
  if f.payload.length < 1 then say 0 .malformed s
  else match positionOf (positionByte f) with
    | none => say (positionByte f) .malformed s
    | some q =>
      if s.map.isPartner q then say (positionByte f) .notHolder s
      else if (s.claim q).heldBy n then
        handOver q (say (positionByte f) .released (s.setClaim q (barredEntry s q n)))
      else if (s.claim q).waits n then
        let e := s.claim q
        let e1 := { e with waiters := e.waiters.filter fun w => decide (w.station ≠ n) }
        say (positionByte f) .withdrawn (s.setClaim q e1)
      else say (positionByte f) .notHolder s

/-- The hold of entry q has run out (R83): EXPIRED, the bar, the hand-over. -/
def holdExpired (q : Position) (s : State) : State :=
  match (s.claim q).hold with
  | none => s
  | some h => handOver q (answer h.holder (claimNotice .expired q 0) (s.setClaim q (barredEntry s q h.holder)))

/-- A hold expires in match time alone (R74, R91). -/
def execHoldExpiry (q : Position) (s : State) : Step :=
  match s.control.phase.isRunning, (s.claim q).hold with
  | true, some h => .next (holdExpired q (elapse h.remaining s))
  | _, _ => .next s

/-- The bar of entry q has run out and is cleared; a FREE entry with waiters is handed over (R86). -/
def barExpired (q : Position) (s : State) : State :=
  let s1 := s.setClaim q { s.claim q with bar := none }
  if (s.claim q).hold = none then handOver q s1 else s1

def execBarExpiry (q : Position) (s : State) : Step :=
  match s.control.phase.isRunning, (s.claim q).bar with
  | true, some b => .next (barExpired q (elapse b.remaining s))
  | _, _ => .next s

/-- Every entry is set FREE, with no bar and no waiters, on entry to ENDED and on FIELD_RESET (R72, R95). -/
def clearClaims (s : State) : State := { s with claims := .fill 32 .free }

/-- The data of READ_CLAIM for one entry (R97). -/
def claimData (m : ArenaMap) (q : Position) (e : ClaimEntry) : List Byte :=
  [byte e.hold.isSome.toNat, byte (e.hold.elim 0 fun h => num h.holder)] ++ be16 (e.hold.elim 0 Hold.remaining)
    ++ [byte (e.bar.elim 0xFF fun b => b.alliance.val)] ++ be16 (e.bar.elim 0 Bar.remaining)
    ++ [byte (m.role q), byte e.waiters.length]
    ++ e.waiters.flatMap fun w => byte (num w.station) :: be16 w.requested

/-- R97. -/
def ownReadClaim (r : Request) (s : State) : Owned :=
  let k := byteAt r.args 0
  if k = 0 then done s (s.claims.items.map fun e => byte (e.hold.elim 0 fun h => num h.holder))
  else match ofNum 32 k with
    | none => refuse .badArgument s
    | some q => done s (claimData s.map q (s.claim q))

def execReadClaim (r : Request) (s : State) : Step := takeRequest 0x38 r (ownReadClaim r) s

end Sys2Proof.Machine
end

