-- ==== Sys2Proof/Machine/Tally.lean ====
section
/-! DEFINITION. The score tally (10_scoring_tally.md): SENSE deliveries, the cross-check and the settle expiries, the
scores, and the requests GOAL_CONFIG, RULING, PENALTY, AWARD and READ_SCORE. -/

namespace Sys2Proof.Machine

/-! ### Records -/

def PeriodRecords.get (x : PeriodRecords) : Period → TallyRecord
  | .auto => x.auto | .driver => x.driver | .endgame => x.endgame

def PeriodRecords.set (x : PeriodRecords) (p : Period) (r : TallyRecord) : PeriodRecords :=
  match p with
  | .auto => { x with auto := r }
  | .driver => { x with driver := r }
  | .endgame => { x with endgame := r }

def Goal.weight (g : Goal) : Period → Nat
  | .auto => g.wAuto | .driver => g.wDriver | .endgame => g.wEndgame

def State.setTally (s : State) (t : Tally) : State := { s with tally := t }

def State.goal (s : State) (g : GoalSlot) : Goal := s.tally.goals.get g

def State.record (s : State) (g : GoalSlot) (a : Alliance) (p : Period) : TallyRecord :=
  ((s.tally.records.get g).get a).get p

def State.setRecord (s : State) (g : GoalSlot) (a : Alliance) (p : Period) (r : TallyRecord) : State :=
  let row := s.tally.records.get g
  s.setTally { s.tally with records := s.tally.records.set g (row.set a ((row.get a).set p r)) }

def State.setSettle (s : State) (g : GoalSlot) (t : Option Nat) : State :=
  s.setTally { s.tally with settle := s.tally.settle.set g t }

/-- Every alliance and period, in the order of a comparison (R179). -/
def recordOrder : List (Alliance × Period) := (List.finRange 4).flatMap fun a => Period.all.map fun p => (a, p)

/-! ### Credited counts and the score -/

/-- R181. -/
def TallyRecord.credited (r : TallyRecord) : Nat :=
  match r.state with
  | .agreed => r.main
  | .opened | .disputed => min r.main r.check
  | .ruled => r.ruled

/-- What goal slot g adds to the exact sum of alliance a; an unconfigured slot adds nothing (R182). -/
def State.goalSum (s : State) (a : Alliance) (g : GoalSlot) : Nat :=
  if (s.goal g).position.isSome then (Period.all.map fun p => (s.goal g).weight p * (s.record g a p).credited).sum else 0

/-- The exact sum of alliance a (R182 step 1). -/
def State.exactSum (s : State) (a : Alliance) : Nat := ((List.finRange 8).map (s.goalSum a)).sum

/-- The score S(a) (R182 step 2). -/
def State.score (s : State) (a : Alliance) : Nat :=
  min Config.maxCount (s.exactSum a + s.tally.bonus.get a - s.tally.penalty.get a)

def State.scoreBytes (s : State) : List Byte := (List.finRange 4).flatMap fun a => be16 (s.score a)

/-- The number of records that are DISPUTED. -/
def State.disputedCount (s : State) : Nat :=
  ((List.finRange 8).map fun g => recordOrder.countP fun (a, p) => decide ((s.record g a p).state = .disputed)).sum

/-- The SCORE notice (R11, R185, R186). -/
def scoreNotice (a : Alliance) (s : State) : State := notice .score (byte a.val :: be16 (s.score a)) s

/-! ### The cross-check -/

/-- Whether the two counts agree within the tolerance (R179). -/
def TallyRecord.agrees (r : TallyRecord) (tolerance : Nat) : Bool :=
  decide (r.main - r.check ≤ tolerance) && decide (r.check - r.main ≤ tolerance)

/-- An OPEN record is compared (R179). -/
def compareRecord (g : GoalSlot) (s : State) (i : Alliance × Period) : State :=
  let r := s.record g i.1 i.2
  if r.state ≠ .opened then s
  else if r.agrees (s.goal g).tolerance then s.setRecord g i.1 i.2 { r with state := .agreed }
  else
    notice .dispute [byte g.val, byte i.1.val, byte i.2.code, byte r.main, byte r.check]
      (s.setRecord g i.1 i.2 { r with state := .disputed })

/-- Every OPEN record of the goal is compared (R179). -/
def compareGoal (g : GoalSlot) (s : State) : State := recordOrder.foldl (compareRecord g) s

/-- The goal's settle timer has run out (R179). -/
def settleExpired (g : GoalSlot) (s : State) : State := compareGoal g (s.setSettle g none)

def execSettleExpiry (g : GoalSlot) (s : State) : Step :=
  match s.tally.settle.get g with
  | none => .next s
  | some r => .next (settleExpired g (elapse r s))

/-! ### The final settle -/

/-- The OPEN records of a configured goal are compared (R184 step 2). -/
def compareConfigured (s : State) (g : GoalSlot) : State :=
  if (s.goal g).position.isSome then compareGoal g s else s

/-- The end of the final settle (R184). -/
def endFinalSettle (s : State) : State :=
  let s1 := s.setTally { s.tally with settle := .fill 8 none }
  let s2 := (List.finRange 8).foldl compareConfigured s1
  let s3 := s2.setTally { s2.tally with final := .done }
  notice .final (s3.scoreBytes ++ [byte s3.disputedCount]) s3

/-- The longest settle time among the configured goal slots, or 0 (R183). -/
def State.finalSettleTime (s : State) : Nat :=
  (s.tally.goals.items.map fun g => if g.position.isSome then g.settleTime else 0).foldl max 0

/-- The final settle on entry to ENDED; of length 0 it ends at once (R183). -/
def startFinalSettle (s : State) : State :=
  let n := s.finalSettleTime
  let s1 := s.setTally { s.tally with final := .running n }
  if n = 0 then endFinalSettle s1 else s1

def execFinalSettleExpiry (s : State) : Step :=
  match s.tally.final with
  | .running r => .next (endFinalSettle (elapse r s))
  | .idle | .done => .next s

/-! ### SENSE -/

/-- The period of a running phase's events (R177). -/
def Running.period : Running → Period
  | .auto | .transit => .auto
  | .driver => .driver
  | .endgame => .endgame

/-- The period a SENSE taken now is attributed to (R177). -/
def State.sensePeriod (s : State) : Option Period :=
  match s.control.phase, s.tally.final with
  | .running r, _ | .paused r _, _ | .ended r, .running _ => some r.period
  | _, _ => none

/-- The configured goal slot at position q. -/
def State.goalAt (s : State) (q : Position) : Option GoalSlot :=
  s.tally.goals.find? fun g => decide (g.position = some q)

inductive Sensor where
  | main | check
  deriving DecidableEq, Repr

/-- The fields of a SENSE code byte (01, Chain messages); bit 6 is not read. -/
def senseSensor (code : Byte) : Sensor := if code.getLsbD 7 then .check else .main
def senseAlliance (code : Byte) : Alliance := ⟨(code.extractLsb' 4 2).toNat, (code.extractLsb' 4 2).isLt⟩
def senseDelta (code : Byte) : Nat := (code.extractLsb' 0 4).toNat

/-- An accepted SENSE on its record: the count, and an AGREED or DISPUTED record becomes OPEN (R178). -/
def TallyRecord.sense (r : TallyRecord) (sensor : Sensor) (delta : Nat) : TallyRecord :=
  let counted := match sensor with
    | .main => { r with main := countUp Config.maxTally r.main delta }
    | .check => { r with check := countUp Config.maxTally r.check delta }
  if r.state = .ruled then counted else { counted with state := .opened }

/-- A SENSE is delivered to the tally, which accepts it or discards it silently (R176, R178). -/
def deliverSense (q : Position) (code : Byte) (s : State) : State :=
  match s.goalAt q, s.map.hidden q, s.sensePeriod with
  | some g, false, some p =>
    let a := senseAlliance code
    (s.setRecord g a p ((s.record g a p).sense (senseSensor code) (senseDelta code))).setSettle g
      (some (s.goal g).settleTime)
  | _, _, _ => s

/-! ### Requests -/

/-- R174. -/
def ownGoalConfig (r : Request) (s : State) : Owned :=
  let b := byteAt r.args
  if s.control.phase ≠ .setup then refuse .locked s
  else match ofIndex 8 (b 0) with
    | none => refuse .badArgument s
    | some g =>
      if 32 < b 1 then refuse .badArgument s
      else match ofNum 32 (b 1) with
        | none => done (s.setTally { s.tally with goals := s.tally.goals.set g .unconfigured })
        | some q =>
          let settleTime := wordAt r.args 6
          if 50 < b 2 ∨ 50 < b 3 ∨ 50 < b 4 ∨ 3 < b 5 ∨ settleTime < 100 ∨ 2000 < settleTime then refuse .badArgument s
          else if (List.finRange 8).any fun k => decide (k ≠ g) && decide ((s.goal k).position = some q) then
            refuse .overlap s
          else
            let x : Goal :=
              { position := some q, wAuto := b 2, wDriver := b 3, wEndgame := b 4, tolerance := b 5, settleTime }
            done (s.setTally { s.tally with goals := s.tally.goals.set g x })

def execGoalConfig (r : Request) (s : State) : Step := takeRequest 0x70 r (ownGoalConfig r) s

/-- SETUP or STAGED: no score moves. -/
def Phase.isBefore : Phase → Bool
  | .setup | .staged => true
  | _ => false

/-- R185. -/
def ownRuling (r : Request) (s : State) : Owned :=
  if s.control.phase.isBefore then refuse .locked s
  else match ofIndex 8 (byteAt r.args 0), ofIndex 4 (byteAt r.args 1), Period.ofCode (byteAt r.args 2) with
    | some g, some a, some p =>
      if (s.goal g).position = none then refuse .state s
      else done (scoreNotice a (s.setRecord g a p { s.record g a p with state := .ruled, ruled := byteAt r.args 3 }))
    | _, _, _ => refuse .badArgument s

def execRuling (r : Request) (s : State) : Step := takeRequest 0x71 r (ownRuling r) s

/-- The checks of PENALTY and AWARD, and the points added to a total of alliance a (R186). -/
def ownPoints (r : Request) (add : Tally → Alliance → Nat → Tally) (s : State) : Owned :=
  let points := wordAt r.args 1
  if s.control.phase.isBefore then refuse .locked s
  else match ofIndex 4 (byteAt r.args 0) with
    | none => refuse .badArgument s
    | some a =>
      if points < 1 ∨ 1000 < points then refuse .badArgument s
      else done (scoreNotice a (s.setTally (add s.tally a points)))

def addPenalty (t : Tally) (a : Alliance) (points : Nat) : Tally :=
  { t with penalty := t.penalty.set a (countUp Config.maxCount (t.penalty.get a) points) }

def addBonus (t : Tally) (a : Alliance) (points : Nat) : Tally :=
  { t with bonus := t.bonus.set a (countUp Config.maxCount (t.bonus.get a) points) }

/-- R186. -/
def execPenalty (r : Request) (s : State) : Step := takeRequest 0x72 r (ownPoints r addPenalty) s

/-- R186. -/
def execAward (r : Request) (s : State) : Step := takeRequest 0x73 r (ownPoints r addBonus) s

/-- The data of READ_SCORE with goal slot 0xFF (R187). -/
def State.summaryData (s : State) : List Byte :=
  s.scoreBytes ++ s.tally.bonus.items.flatMap be16 ++ s.tally.penalty.items.flatMap be16
    ++ [byte s.tally.final.code, byte s.disputedCount]

def TallyRecord.bytes (r : TallyRecord) : List Byte :=
  [byte r.state.code, byte r.main, byte r.check, byte r.ruled, byte r.credited]

/-- The data of READ_SCORE with a goal slot 0–7 (R187). -/
def State.goalData (s : State) (g : GoalSlot) (a : Alliance) : List Byte :=
  let x := s.goal g
  s.scoreBytes
    ++ [byte (x.position.elim 0 num), byte x.wAuto, byte x.wDriver, byte x.wEndgame, byte x.tolerance]
    ++ be16 x.settleTime ++ be16 ((s.tally.settle.get g).getD 0)
    ++ Period.all.flatMap fun p => (s.record g a p).bytes

/-- R187. -/
def ownReadScore (r : Request) (s : State) : Owned :=
  if byteAt r.args 0 = 0xFF then done s s.summaryData
  else match ofIndex 8 (byteAt r.args 0), ofIndex 4 (byteAt r.args 1) with
    | some g, some a => done s (s.goalData g a)
    | _, _ => refuse .badArgument s

def execReadScore (r : Request) (s : State) : Step := takeRequest 0x74 r (ownReadScore r) s

end Sys2Proof.Machine
end

