-- ==== Sys2Proof/Machine/Chain.lean ====
section
/-! DEFINITION. The chain controller (06_element_commands_and_credit.md from the dequeue on, 08_the_field_chain.md):
liveness, transactions, the dequeue and its recheck, the pending send, the census, the messages that arrive, and the
requests CHAIN_CONFIG, CENSUS, ELEMENT_DIRECT, RESET_NODE and READ_NODE. -/

namespace Sys2Proof.Machine

/-! ### Liveness -/

/-- A message has come from a node that is not ABSENT (R136). -/
def hear (q : Position) (s : State) : State :=
  let x := s.node q
  match x.state with
  | .absent => s
  | .present | .ready => s.setNode q { x with misses := 0 }
  | .lost => nodeChange q .lost .ready x.servingEnd (s.setNode q { x with state := .ready, misses := 0 })

/-- A node beyond a lost node takes serving end CB (R139). -/
def switchEnd (q k : Position) (s : State) : State :=
  let x := s.node k
  if q < k ∧ x.state ≠ .absent ∧ x.servingEnd = .ca then
    nodeChange k x.state x.state .cb (s.setNode k { x with servingEnd := .cb })
  else s

/-- A READY node is lost; in RING mode the loss of a node served from CA switches the nodes beyond it (R137, R139). -/
def loseNode (q : Position) (s : State) : State :=
  let x := s.node q
  let s1 := nodeChange q .ready .lost x.servingEnd (s.setNode q { x with state := .lost, misses := Config.maxMisses })
  if s.chain.mode = .ring ∧ x.servingEnd = .ca then (List.finRange 32).foldl (fun s k => switchEnd q k s) s1 else s1

/-- A transaction to q has timed out: the node is charged one miss (R137). -/
def chargeMiss (q : Position) (s : State) : State :=
  let x := s.node q
  let misses := countUp Config.maxMisses x.misses 1
  match x.state with
  | .absent => s
  | .ready => if misses = Config.maxMisses then loseNode q s else s.setNode q { x with misses }
  | .present | .lost => s.setNode q { x with misses }

/-! ### Transactions -/

/-- A COMMAND to q is sent under tag t on the serving end of its record (R109, R140, R146). -/
def sendCommand (t : TagId) (q : Position) (origin : Origin) (function : Byte) (value : BitVec 16) (s : State) : State :=
  let e := (s.node q).servingEnd
  sendOn e { type := .command, position := num q, tag := t.val, code := function, value }
    (s.setTag t (some { origin, position := q, sentOn := e, timer := s.chain.replyTimeout }))

/-- An answer about an ELEMENT frame after admission (R108, R112, R114, R128). -/
def elementAnswer (code : AnswerCode) (sequence position : Byte) (value : BitVec 16) : Answer :=
  { code, kind := .element, sequence, position, value, extra := 0 }

/-- The transaction of tag t ends: the tag is freed, and the outcome goes to the robot the record still holds, or in a
DIRECT_DONE report (R112, R114, R148, R149). -/
def endTransaction (t : TagId) (outcome : AnswerCode) (value : BitVec 16) (s : State) : State :=
  match s.tag t with
  | none => s
  | some r =>
    let s1 := s.setTag t none
    let position := byte (num r.position)
    match r.origin with
    | .robot (some n) sequence => answer n (elementAnswer outcome sequence position value) s1
    | .robot none _ => s1
    | .direct requestTag => laterResult .directDone requestTag ([byte outcome.code, position] ++ bytes16 value) s1

/-- Every transaction with the property is aborted, in ascending order of tag (R149, R151). -/
def abortTags (p : TagRecord → Bool) (s : State) : State :=
  (List.finRange 8).foldl (fun s t => if (s.tag t).any p then endTransaction t .aborted 0 s else s) s

/-- The reply timer of tag t has run out: the transaction ends as timed out, and the node is charged (R114, R137; the
order of the two is notes/assumptions/13.md). -/
def replyTimedOut (t : TagId) (s : State) : State :=
  match s.tag t with
  | none => s
  | some r => chargeMiss r.position (endTransaction t .timeout 0 s)

def execReplyTimeout (t : TagId) (s : State) : Step :=
  match s.tag t with
  | none => .next s
  | some r => .next (replyTimedOut t (elapse r.timer s))

/-! ### The dequeue and the pending send -/

/-- The recheck of a command of robot n to q (R108). -/
def State.recheck (s : State) (n : StationId) (q : Position) : Option AnswerCode :=
  if !s.control.phase.isCommand then some .phase
  else if s.map.hidden q then some .hidden
  else if (s.node q).state ≠ .ready then some .nodeDown
  else if s.map.decode (s.station n).alliance q = .shared ∧ !(s.claim (s.map.effective q)).heldBy n then some .notHolder
  else none

/-- A dequeued ELEMENT frame is rechecked, and refused or sent under tag t (R108, R109). -/
def recheckAndSend (t : TagId) (f : Frame) (s : State) : State :=
  match stationOf f.source, positionOf (positionByte f.toFrameBody) with
  | some n, some q =>
    match s.recheck n q with
    | some code => answer n (elementAnswer code f.sequence (positionByte f.toFrameBody) 0) s
    | none =>
      sendCommand t q (.robot (some n) f.sequence) (f.payload.getD 1 0) (word16 (f.payload.getD 2 0) (f.payload.getD 3 0)) s
  | _, _ => s

/-- The head frame of area a leaves it. -/
def popFrame (a : AreaId) (s : State) : State := s.setArea a { s.area a with frames := (s.area a).frames.tail }

/-- One dequeue, when its conditions hold (R107). -/
def dequeueOne (s : State) : State :=
  match s.dequeueReady with
  | none => s
  | some (t, a) =>
    match (s.area a).frames.head? with
    | none => s
    | some f => recheckAndSend t f (popFrame a s)

def execDequeue (s : State) : Step := .next (dequeueOne s)

/-- The command in the pending slot is sent, when the conditions of R147 hold. -/
def sendPending (s : State) : State :=
  match s.pendingReady with
  | none => s
  | some (t, d) => sendCommand t d.position (.direct d.requestTag) d.function d.value (s.setSlot none)

def execPendingSend (s : State) : Step := .next (sendPending s)

/-! ### The census -/

/-- The next position a pass probes from index k on: every position on CA, those still ABSENT on CB (R142). -/
def State.nextProbe (s : State) (pass : ChainEnd) (k : Nat) : Option Position :=
  (List.finRange 32).find? fun q => decide (k ≤ q.val) && (decide (pass = .ca) || decide ((s.node q).state = .absent))

/-- PROBE is sent to q on the end of the pass, and its probe timer starts (R142). -/
def sendProbe (requestTag : Byte) (pass : ChainEnd) (q : Position) (s : State) : State :=
  sendOn pass (addressedMessage .probe q)
    (s.setCensus (some { requestTag, pass, position := q, timer := s.chain.replyTimeout }))

def wakeNode (x : Node) : Node := if x.state = .present then { x with state := .ready, misses := 0 } else x

def State.readyCount (s : State) : Nat := s.chain.nodes.count fun x => decide (x.state = .ready)

/-- The end of the census: WAKE, every PRESENT record READY, RESUME, CENSUS_DONE (R143). -/
def finishCensus (requestTag : Byte) (s : State) : State :=
  let s1 := sendSignal .wake s
  let s2 := sendSignal .resume { s1 with chain := { s1.chain with nodes := s1.chain.nodes.map wakeNode } }
  let s3 := s2.setCensus none
  laterResult .censusDone requestTag [byte s3.readyCount] s3

/-- What follows a probe that has been answered, has timed out or is abandoned: the next probe of the pass, the CB pass
in RING mode, or the end (R142, R143). -/
def continueCensus (c : Census) (s : State) : State :=
  match s.nextProbe c.pass (c.position.val + 1) with
  | some q => sendProbe c.requestTag c.pass q s
  | none =>
    match c.pass, s.chain.mode with
    | .ca, .ring =>
      match s.nextProbe .cb 0 with
      | some q => sendProbe c.requestTag .cb q s
      | none => finishCensus c.requestTag s
    | _, _ => finishCensus c.requestTag s

/-- The probe timer has run out: the record stays ABSENT (R142). -/
def execProbeTimeout (s : State) : Step :=
  match s.chain.census with
  | none => .next s
  | some c => .next (continueCensus c (elapse c.timer s))

/-! ### Messages from the chain -/

/-- The tag record a REPLY matches (R112). -/
def State.replyMatch (s : State) (q : Position) (tag : Byte) : Option TagId :=
  (ofIndex 8 tag.toNat).filter fun t => (s.tag t).any fun r => decide (r.position = q)

/-- The outcome and value of a REPLY's status (R112). -/
def replyOutcome (status : Byte) (value : BitVec 16) : AnswerCode × BitVec 16 :=
  match status.toNat with
  | 0 => (.done, value)
  | 1 => (.nodeFault, 0)
  | _ => (.badFunction, 0)

/-- A valid REPLY from position q (R112, R113, R136). -/
def takeReply (q : Position) (tag status : Byte) (value : BitVec 16) (s : State) : State :=
  if (s.node q).state = .absent then s
  else
    let s1 := hear q s
    match s.replyMatch q tag with
    | none => s1
    | some t => endTransaction t (replyOutcome status value).1 (replyOutcome status value).2 s1

/-- A valid SENSE from position q (R136, R153). -/
def takeSense (q : Position) (code : Byte) (s : State) : State :=
  if (s.node q).state = .absent then s else deliverSense q code (hear q s)

/-- The probe in flight that a PROBE_REPLY from q on end e answers (R142). -/
def State.probeAnswered (s : State) (e : ChainEnd) (q : Position) : Option Census :=
  s.chain.census.filter fun c => decide (c.position = q) && decide (c.pass = e)

/-- A valid PROBE_REPLY from position q on end e (R136, R142). -/
def takeProbeReply (e : ChainEnd) (q : Position) (kind : NodeKind) (s : State) : State :=
  let s1 := hear q s
  match s.probeAnswered e q with
  | none => s1
  | some c =>
    continueCensus c (s1.setNode q { s1.node q with state := .present, kind := some kind, servingEnd := e })

/-- REPLY (R112); a message that fails a check of R13 is discarded. -/
def execReply (_e : ChainEnd) (position tag status : Byte) (value : BitVec 16) (s : State) : Step :=
  match positionOf position with
  | none => .next s
  | some q => if 2 < status.toNat then .next s else .next (takeReply q tag status value s)

/-- PROBE_REPLY (R142); a message that fails a check of R13 is discarded. -/
def execProbeReply (e : ChainEnd) (position nodeKind : Byte) (s : State) : Step :=
  match positionOf position, NodeKind.ofCode nodeKind.toNat with
  | some q, some kind => .next (takeProbeReply e q kind s)
  | _, _ => .next s

/-- SENSE (R153); a message that fails a check of R13 is discarded. -/
def execSense (_e : ChainEnd) (position code : Byte) (s : State) : Step :=
  match positionOf position with
  | none => .next s
  | some q => if senseDelta code = 0 then .next s else .next (takeSense q code s)

/-- A message that fails a check of R13 or R14 changes nothing; bytes that pass are the message they spell
(notes/assumptions/3.md). -/
def execChainMessageDiscard (e : ChainEnd) (bytes : List Byte) (s : State) : Step :=
  match chainCommand e bytes with
  | .reply e position tag status value => execReply e position tag status value s
  | .probeReply e position nodeKind => execProbeReply e position nodeKind s
  | .sense e position code => execSense e position code s
  | _ => .next s

/-! ### The chain ends -/

/-- The message on the line has gone whole: the first that waits goes on the line (R140). -/
def ChainSide.advance (x : ChainSide) : ChainSide := { onLine := x.waiting.head?, waiting := x.waiting.tail }

def execChainSendNext (e : ChainEnd) (s : State) : Step := .next (s.setSide e (s.side e).advance)

def ChainMessage.isTracked (m : ChainMessage) : Bool := decide (m.type = .command) || decide (m.type = .probe)

/-- A LINK_RESET at an end's outgoing side: COMMAND and PROBE messages are gone, and a cut-off signal is sent again first
(R151 step 1). -/
def ChainSide.cutOff (x : ChainSide) : ChainSide :=
  match (x.onLine.toList ++ x.waiting).filter (!·.isTracked) with
  | [] => .empty
  | m :: ms => { onLine := some m, waiting := ms }

/-- A probe in flight on the end is abandoned (R151 step 3). -/
def abandonProbe (e : ChainEnd) (s : State) : State :=
  match s.chain.census.filter fun c => decide (c.pass = e) with
  | none => s
  | some c => continueCensus c s

/-- HALT is sent again on the end of a halted chain; CB carries signals in RING mode alone (R151 step 4, R140). -/
def resendHalt (e : ChainEnd) (s : State) : State :=
  if s.chain.halted ∧ (e = .ca ∨ s.chain.mode = .ring) then sendOn e (signalMessage .halt) s else s

/-- LINK_RESET of a chain end (R151). What RING mode left on CB is treated by the same steps in LINE mode (DESIGN CHOICE,
notes/assumptions/31.md). -/
def resetChainEnd (e : ChainEnd) (s : State) : State :=
  resendHalt e (abandonProbe e (abortTags (fun r => decide (r.sentOn = e)) (s.setSide e (s.side e).cutOff)))

/-! ### Requests -/

/-- R135. -/
def ownChainConfig (r : Request) (s : State) : Owned :=
  let timeout := wordAt r.args 1
  if s.control.phase ≠ .setup then refuse .locked s
  else match ChainMode.ofCode (byteAt r.args 0) with
    | none => refuse .badArgument s
    | some mode =>
      if timeout < 2 ∨ 250 < timeout then refuse .badArgument s
      else if s.chain.census ≠ none then refuse .busy s
      else
        let nodes := if mode = s.chain.mode then s.chain.nodes else .fill 32 .powerOn
        done { s with chain := { s.chain with mode, nodes, replyTimeout := timeout } }

def execChainConfig (r : Request) (s : State) : Step := takeRequest 0x50 r (ownChainConfig r) s

/-- ACCEPTED: the request has begun (R10, R190). -/
def accepted (s : State) : Owned := { state := s, result := .accepted, data := [] }

/-- R141. -/
def ownCensus (r : Request) (s : State) : Owned :=
  if !s.control.phase.isBetween then refuse .locked s
  else if s.chain.census ≠ none then refuse .busy s
  else accepted (sendProbe r.tag .ca 0 { s with chain := { s.chain with nodes := .fill 32 .powerOn } })

def execCensus (r : Request) (s : State) : Step := takeRequest 0x51 r (ownCensus r) s

/-- R146. Taken while the slot holds a command and a tag is free, but the send of R147 has not been taken yet, the request
gets that tag by step 3 of R146 and the slot's command waits on: R107 and R147 give the tag to the slot's command, and the spec
leaves open what a request taken in between meets (DESIGN CHOICE, notes/assumptions/30.md). -/
def ownElementDirect (r : Request) (s : State) : Owned :=
  let function := r.args.getD 1 0
  let value := word16 (r.args.getD 2 0) (r.args.getD 3 0)
  match ofNum 32 (byteAt r.args 0) with
  | none => refuse .badArgument s
  | some q =>
    if s.chain.census ≠ none then refuse .busy s
    else match s.freeTag with
      | some t => accepted (sendCommand t q (.direct r.tag) function value s)
      | none =>
        if s.chain.slot = none then
          accepted (s.setSlot (some { requestTag := r.tag, position := q, function, value }))
        else refuse .busy s

def execElementDirect (r : Request) (s : State) : Step := takeRequest 0x52 r (ownElementDirect r) s

/-- The reset of node q, taken whole (R149). -/
def resetNode (q : Position) (s : State) : State :=
  let old := s.node q
  let s1 := abortTags (fun r => decide (r.position = q)) (sendOn old.servingEnd (addressedMessage .resetNode q) s)
  let s2 := sendSignal .wake (s1.setNode q { s1.node q with state := .present, misses := 0 })
  let s3 := s2.setNode q { s2.node q with state := .ready }
  let s4 := if s.chain.halted then sendSignal .halt s3 else s3
  if old.state = .ready then s4 else nodeChange q old.state .ready old.servingEnd s4

/-- R149. -/
def ownResetNode (r : Request) (s : State) : Owned :=
  if !(s.control.phase.isBetween || s.control.phase.isPaused) then refuse .locked s
  else match ofNum 32 (byteAt r.args 0) with
    | none => refuse .badArgument s
    | some q =>
      if s.chain.census ≠ none then refuse .busy s
      else if (s.node q).state = .absent then refuse .state s
      else done (resetNode q s)

def execResetNode (r : Request) (s : State) : Step := takeRequest 0x53 r (ownResetNode r) s

/-- READ_NODE byte 4: whether a census runs, and its pass (R154). -/
def censusCode : Option Census → Nat
  | none => 0
  | some c => match c.pass with
    | .ca => 1
    | .cb => 2

/-- READ_NODE byte 6: bit t set for each tag in use (R154). -/
def tagsInUse (s : State) : Nat :=
  (List.finRange 8).foldl (fun acc t => acc + if (s.tag t).isSome then 2 ^ t.val else 0) 0

/-- The data of READ_NODE with position 0 (R154). -/
def chainData (s : State) : List Byte :=
  [byte s.chain.mode.code] ++ be16 s.chain.replyTimeout
    ++ [byte s.chain.halted.toNat, byte (censusCode s.chain.census), byte s.chain.slot.isSome.toNat, byte (tagsInUse s)]
    ++ s.chain.nodes.items.map fun x => byte x.state.code

/-- The data of READ_NODE with a position 1–32 (R154). -/
def nodeData (s : State) (q : Position) : List Byte :=
  let x := s.node q
  [byte x.state.code, byte (x.kind.elim 0xFF NodeKind.code), byte x.servingEnd.code, byte x.misses,
   byte (s.chain.tags.count fun t => t.any fun r => decide (r.position = q))]

/-- R154. -/
def ownReadNode (r : Request) (s : State) : Owned :=
  if byteAt r.args 0 = 0 then done s (chainData s)
  else match ofNum 32 (byteAt r.args 0) with
    | none => refuse .badArgument s
    | some q => done s (nodeData s q)

def execReadNode (r : Request) (s : State) : Step := takeRequest 0x54 r (ownReadNode r) s

end Sys2Proof.Machine
end

