-- ==== Sys2Proof/Machine/Elements.lean ====
section
/-! DEFINITION. Element admission and the credit unit (06_element_commands_and_credit.md): the ELEMENT handler, the
credit tick, and the requests CREDIT_PARAMS and READ_CREDIT. -/

namespace Sys2Proof.Machine

def State.setBalance (s : State) (n : StationId) (b : Nat) : State :=
  { s with credit := { s.credit with balances := s.credit.balances.set n b } }

/-- The cost of function f at a profile (R98 step 7). -/
def Profile.cost (x : Profile) (function : Byte) : Nat := if function.toNat < 128 then x.costLow else x.costHigh

/-- A refusal of the ELEMENT frame f by admission (R98). -/
def refuseElement (n : StationId) (f : FrameBody) (position : Byte) (code : AnswerCode) (extra : Nat) (s : State) : State :=
  answer n { code, kind := .element, sequence := f.sequence, position, value := 0, extra } s

/-- Steps 7 to 9 of R98: the balance, the area, the charge and the store. At a full area the drop and its AREA_DROP notice
come before the BUSY answer: R99 does not order the two, so this order is the model's (notes/assumptions/29.md). -/
def chargeAndStore (n : StationId) (f : Frame) (q : Position) (steer : Option AreaId) (s : State) : State :=
  let cost := (s.profile q).cost (f.payload.getD 1 0)
  let balance := s.balance n
  let say := fun code extra s => refuseElement n f.toFrameBody (positionByte f.toFrameBody) code extra s
  if balance < cost then say .slow balance s
  else match s.chooseArea .chain .normal steer with
    | none => say .busy 0 s
    | some a =>
      if (s.area a).full then say .busy 0 (dropAt a s)
      else (s.setBalance n (balance - cost)).setArea a ((s.area a).store f)

/-- Steps 5 and 6 of R98, for a position that decodes HOME or SHARED: the node, and on a shared node the claim. -/
def admitCommand (n : StationId) (f : Frame) (q : Position) (shared : Bool) (steer : Option AreaId) (s : State) : State :=
  let say := fun code => refuseElement n f.toFrameBody (positionByte f.toFrameBody) code 0 s
  if (s.node q).state ≠ .ready then say .nodeDown
  else if shared && !(s.claim (s.map.effective q)).heldBy n then say .notHolder
  else chargeAndStore n f q steer s

/-- The ELEMENT handler (R98, R99). -/
def handleElement (n : StationId) (f : Frame) (steer : Option AreaId) (s : State) : State :=
  let b := positionByte f.toFrameBody
  let say := fun position code => refuseElement n f.toFrameBody position code 0 s
  if f.payload.length < 4 then say 0 .malformed
  else match positionOf b with
    | none => say b .malformed
    | some q =>
      if (s.station n).held then say b .held
      else match s.map.decode (s.station n).alliance q with
        | .hidden => say b .hidden
        | .foreign => say b .foreign
        | .unmapped => say b .unmapped
        | .home => admitCommand n f q false steer s
        | .shared => admitCommand n f q true steer s

/-! ### The credit unit -/

/-- Every balance is set to the cap in force (R101, R103, R105). -/
def fillCredit (s : State) : State := { s with credit := { s.credit with balances := .fill 32 s.credit.cap } }

/-- The accumulator stands at 10 ms: the refill, and the accumulator returns to 0 (R102, R160). -/
def tickFalls (s : State) : State := { s with credit := s.credit.tick, control := { s.control with accumulator := 0 } }

/-- The next credit tick, in match time alone: the rest of its 10 ms pass, and it falls (R160). -/
def execCreditTick (s : State) : Step :=
  if s.control.phase.isRunning then .next (tickFalls (elapse (Config.tickLength - s.control.accumulator) s)) else .next s

/-- R105. -/
def ownCreditParams (r : Request) (s : State) : Owned :=
  let rate := byteAt r.args 0
  let burst := byteAt r.args 1
  if !s.control.phase.isIdle then refuse .locked s
  else if rate < 1 ∨ 64 < rate ∨ burst < 1 ∨ 15 < burst then refuse .badArgument s
  else
    let s1 := fillCredit { s with credit := { s.credit with rate, burst } }
    done s1 [byte s1.credit.cap]

def execCreditParams (r : Request) (s : State) : Step := takeRequest 0x3C r (ownCreditParams r) s

/-- The first three data bytes of READ_CREDIT (R106). -/
def Credit.head (c : Credit) : List Byte := [byte c.rate, byte c.burst, byte c.cap]

/-- R106. -/
def ownReadCredit (r : Request) (s : State) : Owned :=
  if byteAt r.args 0 = 0 then done s (s.credit.head ++ s.credit.balances.items.map byte)
  else match ofNum 32 (byteAt r.args 0) with
    | none => refuse .badArgument s
    | some n => done s (s.credit.head ++ [byte (s.balance n)])

def execReadCredit (r : Request) (s : State) : Step := takeRequest 0x3D r (ownReadCredit r) s

end Sys2Proof.Machine
end

