-- ==== Sys2Proof/Machine/Areas.lean ====
section
/-! DEFINITION. The requests of the queue manager (07_frame_memory_queue_areas_and_ports.md): AREA, JOIN_AREA, CLEAR_AREA
and READ_AREA; and the PILOT purge. -/

namespace Sys2Proof.Machine

/-- Whether the layout start to stop − 1 shares a slot with an enabled area other than a (R118 check 4). -/
def State.overlaps (s : State) (a : AreaId) (start stop : Nat) : Bool :=
  decide (start < stop) && (List.finRange 12).any fun b =>
    decide (b ≠ a) && (s.area b).enabled && decide (start < (s.area b).stop) && decide ((s.area b).start < stop)

/-- R118. -/
def ownArea (r : Request) (s : State) : Owned :=
  let start := wordAt r.args 1
  let stop := wordAt r.args 3
  if !s.control.phase.isBetween then refuse .locked s
  else match ofIndex 12 (byteAt r.args 0) with
    | none => refuse .badArgument s
    | some a =>
      if 256 < start ∨ 256 < stop then refuse .badArgument s
      else if !(s.area a).frames.isEmpty then refuse .busy s
      else if s.overlaps a start stop then refuse .overlap s
      else
        let join := if start < stop then (s.area a).join else none
        done (s.setArea a { s.area a with start, stop, join })

def execArea (r : Request) (s : State) : Step := takeRequest 0x40 r (ownArea r) s

/-- The join that JOIN_AREA's consumer and lane bytes name; the lane is not read with consumer 0xFF (R119 check 2). -/
def joinOf (consumer lane : Nat) : Option (Option Join) :=
  if consumer = 0xFF then some none
  else match Consumer.ofCode consumer, Lane.ofCode lane with
    | some c, some l => some (some { consumer := c, lane := l })
    | _, _ => none

/-- R119. -/
def ownJoinArea (r : Request) (s : State) : Owned :=
  if !s.control.phase.isBetween then refuse .locked s
  else match ofIndex 12 (byteAt r.args 0), joinOf (byteAt r.args 1) (byteAt r.args 2) with
    | some a, some join =>
      if !(s.area a).frames.isEmpty then refuse .busy s
      else if join.isSome && !(s.area a).enabled then refuse .state s
      else if join.isSome && (List.finRange 12).any (fun b => decide (b ≠ a) && decide ((s.area b).join = join)) then
        refuse .overlap s
      else done (s.setArea a { s.area a with join })
    | _, _ => refuse .badArgument s

def execJoinArea (r : Request) (s : State) : Step := takeRequest 0x41 r (ownJoinArea r) s

/-- A command discarded from an area joined to CHAIN is answered CLEARED (R128). -/
def answerCleared (s : State) (f : Frame) : State :=
  match f.kind, stationOf f.source with
  | .element, some n => answer n (elementAnswer .cleared f.sequence (positionByte f.toFrameBody) 0) s
  | _, _ => s

/-- R128. The frames are discarded before the answers are offered (notes/assumptions/22.md). -/
def ownClearArea (r : Request) (s : State) : Owned :=
  match ofIndex 12 (byteAt r.args 0) with
  | none => refuse .badArgument s
  | some a =>
    let x := s.area a
    let s1 := s.setArea a { x with frames := [] }
    done (if x.servesConsumer .chain then x.frames.foldl answerCleared s1 else s1) (be16 x.frames.length)

def execClearArea (r : Request) (s : State) : Step := takeRequest 0x42 r (ownClearArea r) s

/-- The 13 data bytes of READ_AREA (R132). -/
def Area.bytes (x : Area) : List Byte :=
  be16 x.start ++ be16 x.stop
    ++ [byte (x.join.elim 0xFF fun j => j.consumer.code), byte (x.join.elim 0xFF fun j => j.lane.code)]
    ++ be16 x.frames.length ++ be16 x.peak ++ be16 x.drops ++ [byte x.notified.toNat]

/-- A clearing read: the drop count, the drop-notified flag and the peak (R132). -/
def Area.clearCounts (x : Area) : Area := { x with drops := 0, notified := false, peak := x.frames.length }

/-- R132. -/
def ownReadArea (r : Request) (s : State) : Owned :=
  match ofIndex 12 (byteAt r.args 0), flagOf (byteAt r.args 1) with
  | some a, some clear => done (if clear then s.setArea a (s.area a).clearCounts else s) (s.area a).bytes
  | _, _ => refuse .badArgument s

def execReadArea (r : Request) (s : State) : Step := takeRequest 0x43 r (ownReadArea r) s

/-- Every PILOT frame leaves every area (R127). -/
def purgePilot (s : State) : State :=
  { s with areas := s.areas.map fun x => { x with frames := x.frames.filter fun f => decide (f.kind ≠ .pilot) } }

/-- The areas not joined to ML are emptied; layout, joins and counters are kept (R117, R195). -/
def emptyStations (s : State) : State :=
  { s with areas := s.areas.map fun x => if x.servesConsumer (.port .ml) then x else { x with frames := [] } }

end Sys2Proof.Machine
end

