-- ==== Sys2Proof/Machine/Framers.lean ====
section
/-! DEFINITION. The port framers (01_frames_and_chain_messages.md, 07_frame_memory_queue_areas_and_ports.md): the
receive side, the transmitters, the line states and LINK_RESET. -/

namespace Sys2Proof.Machine

/-- The line begins to deliver a frame; of the bytes of one delivery 64 are kept (R5). -/
def execReceiveStart (p : Port) (bytes : List Byte) (s : State) : Step :=
  match (s.port p).receive with
  | .idle => .next (s.setPort p { s.port p with receive := .receiving (bytes.take Config.keptBytes) })
  | .receiving _ => .next s

/-- The frame as the part sends it: a forwarded PILOT or TELEM frame leaves with label 0 (R4, R124). -/
def Frame.sent (f : Frame) : Frame :=
  match f.kind with
  | .pilot | .telem => { f with label := 0 }
  | _ => f

/-- The transmitter is SENDING frame f, as its next transmission (R124). -/
def PortState.send (x : PortState) (f : Frame) : PortState :=
  { x with transmitter := some { number := x.taken, wire := (Frame.sent f).wire }, taken := x.taken + 1 }

/-- One take, when the conditions of R124 hold. -/
def takeFrame (p : Port) (s : State) : State :=
  match s.takeReady p with
  | none => s
  | some a =>
    match (s.area a).frames.head? with
    | none => s
    | some f => (popFrame a s).setPort p ((s.port p).send f)

def execTransmitterTake (p : Port) (s : State) : Step := .next (takeFrame p s)

/-- A completion belongs to the transmission it reports; for any other it has no effect (R125). -/
def execTransmitComplete (p : Port) (transmission : Nat) (s : State) : Step :=
  if (s.port p).transmitter.any fun x => decide (x.number = transmission) then
    .next (s.setPort p { s.port p with transmitter := none })
  else .next s

/-- The line goes DOWN: a frame in progress is abandoned; a SENDING transmitter stays SENDING (R5, R125). -/
def execLineDown (p : Port) (s : State) : Step := .next (s.setPort p { s.port p with line := .down, receive := .idle })

def execLineUp (p : Port) (s : State) : Step := .next (s.setPort p { s.port p with line := .up })

/-- LINK_RESET of a frame port (R130). -/
def resetPort (p : Port) (s : State) : State := s.setPort p { s.port p with receive := .idle, transmitter := none }

/-- R130, R151. -/
def ownLinkReset (r : Request) (s : State) : Owned :=
  match byteAt r.args 0 with
  | 5 => done (resetChainEnd .ca s)
  | 6 => done (resetChainEnd .cb s)
  | k =>
    match Port.ofCode k with
    | some p => done (resetPort p s)
    | none => refuse .badArgument s

def execLinkReset (r : Request) (s : State) : Step := takeRequest 0x05 r (ownLinkReset r) s

end Sys2Proof.Machine
end

