-- ==== Sys2Proof/Machine/Phases.lean ====
section
/-! DEFINITION. The phase controller (09_match_phases.md): a change of phase with its announcements and entry effects,
the phase and silence expiries, and the requests that move and time the match. -/

namespace Sys2Proof.Machine

def State.setControl (s : State) (c : PhaseControl) : State := { s with control := c }

/-! ### A change of phase -/

/-- The paused-from byte of PHASE_CHANGE (R11). -/
def Phase.pausedFromByte : Phase → Byte
  | .paused r _ => byte r.code
  | _ => 0xFF

/-- The pause cause byte of PHASE_CHANGE and READ_STATUS (R11). -/
def Phase.causeByte : Phase → Byte
  | .paused _ c => byte c.code
  | _ => 0

/-- The four ARENA PHASE copies and the PHASE_CHANGE notice (R57, R159). -/
def announcePhase (s : State) : State :=
  let s1 := (List.finRange 4).foldl (fun s k => offerRadio k .urgent none (arenaFrame .phase 63 0 s) s) s
  let ph := s1.control.phase
  notice .phaseChange ([byte ph.code, ph.pausedFromByte] ++ be32 s1.control.timer ++ [ph.causeByte]) s1

/-- Station table: the held flags (R32). -/
def holdEntry (new : Phase) (s : State) : State := if new.isDriven then evaluateAll s else clearHeld s

/-- Claim table: cleared on ENDED (R95). -/
def claimEntry (new : Phase) (s : State) : State := if new.isEnded then clearClaims s else s

/-- Credit unit: the cap on AUTO from STAGED (R103). -/
def creditEntry (old new : Phase) (s : State) : State :=
  if old = .staged ∧ new = .running .auto then fillCredit s else s

/-- Queue manager: the PILOT purge on leaving DRIVER or ENDGAME for PAUSED or ENDED (R127). -/
def queueEntry (old new : Phase) (s : State) : State :=
  if old.isDriven && (new.isPaused || new.isEnded) then purgePilot s else s

/-- Chain controller: HALT on entry to PAUSED, RESUME on the exit from it (R145). -/
def chainEntry (old new : Phase) (s : State) : State :=
  if new.isPaused then sendSignal .halt (s.setHalted true)
  else if old.isPaused then sendSignal .resume (s.setHalted false)
  else s

/-- Score tally: the final settle on ENDED (R183). -/
def tallyEntry (new : Phase) (s : State) : State := if new.isEnded then startFinalSettle s else s

/-- The tick accumulator is 0 after an entry to ENDED or SETUP (R160). -/
def entryAccumulator (new : Phase) (accumulator : Nat) : Nat := if new.isBetween then 0 else accumulator

/-- A change of phase, taken whole: both announcements, then the entry effects of every block, in the order of their
table (R159; the order among the blocks is notes/assumptions/12.md). -/
def enterPhase (new : Phase) (timer : Nat) (s : State) : State :=
  let old := s.control.phase
  let s1 := announcePhase
    (s.setControl { s.control with
      phase := new, timer, accumulator := entryAccumulator new s.control.accumulator })
  tallyEntry new (chainEntry old new (queueEntry old new (creditEntry old new (claimEntry new (holdEntry new s1)))))

/-- The successor of a running phase and its phase timer (R156, R157). -/
def PhaseControl.successor (c : PhaseControl) : Running → Phase × Nat
  | .auto => (.running .transit, c.transitLength)
  | .transit => (.running .driver, c.driverLength - c.endgameLength)
  | .driver => (.running .endgame, c.endgameLength)
  | .endgame => (.ended .endgame, 0)

/-- A running phase whose timer is 0 gives way to its successor, and so on (R157, R158). There are four running
phases. -/
def passThroughIn : Nat → State → State
  | 0, s => s
  | k + 1, s =>
    match s.control.phase with
    | .running r =>
      if s.control.timer = 0 then
        passThroughIn k (enterPhase (s.control.successor r).1 (s.control.successor r).2 s)
      else s
    | _ => s

def passThrough (s : State) : State := passThroughIn 4 s

/-- PAUSED is entered from r with the phase timer frozen (R164, R169). -/
def pauseMatch (r : Running) (cause : PauseCause) (s : State) : State := enterPhase (.paused r cause) s.control.timer s

/-! ### Expiries -/

/-- The phase timer counts match time and expires in a running phase alone (R156, R157). -/
def execPhaseExpiry (s : State) : Step :=
  if s.control.phase.isRunning then .next (passThrough (elapse s.control.timer s)) else .next s

/-- The silence timer has run out: it is stopped, and a running match is paused (R169). -/
def silenceExpired (s : State) : State :=
  let s1 := s.setControl { s.control with silence := none }
  match s.control.phase with
  | .running r => pauseMatch r .silence s1
  | _ => s1

def execSilenceExpiry (s : State) : Step :=
  match s.control.silence with
  | none => .next s
  | some r => .next (silenceExpired (elapse r s))

/-! ### Requests -/

/-- STAGE check 5: every configured goal stands on a node record of kind GOAL (R161). -/
def State.goalsOk (s : State) : Bool :=
  s.tally.goals.items.all fun g => g.position.all fun q => decide ((s.node q).kind = some .goal)

/-- R161. -/
def ownStage (s : State) : Owned :=
  if s.control.phase ≠ .setup then refuse .locked s
  else if s.chain.census ≠ none then refuse .busy s
  else if !s.pairingOk then refuse .pairing s
  else if !s.map.checkPairs then refuse .mapMismatch s
  else if !s.goalsOk then refuse .notGoal s
  else done (enterPhase .staged 0 s)

def execStage (r : Request) (s : State) : Step := takeRequest 0x61 r ownStage s

/-- R162. -/
def ownUnstage (s : State) : Owned :=
  if s.control.phase = .staged then done (enterPhase .setup 0 s) else refuse .locked s

def execUnstage (r : Request) (s : State) : Step := takeRequest 0x62 r ownUnstage s

/-- START enters AUTO with the tick accumulator at 0 (R163). -/
def startMatch (s : State) : State :=
  passThrough (enterPhase (.running .auto) s.control.autoLength (s.setControl { s.control with accumulator := 0 }))

/-- R163. -/
def ownStart (s : State) : Owned :=
  if s.control.phase = .staged then done (startMatch s) else refuse .locked s

def execStart (r : Request) (s : State) : Step := takeRequest 0x63 r ownStart s

/-- R164. -/
def ownPause (s : State) : Owned :=
  match s.control.phase with
  | .running p => done (pauseMatch p .request s)
  | _ => refuse .locked s

def execPause (r : Request) (s : State) : Step := takeRequest 0x64 r ownPause s

/-- R165, R166. -/
def ownResume (s : State) : Owned :=
  match s.control.phase with
  | .paused p _ => done (passThrough (enterPhase (.running p) s.control.timer s))
  | _ => refuse .locked s

def execResume (r : Request) (s : State) : Step := takeRequest 0x65 r ownResume s

/-- R167. -/
def ownAbort (s : State) : Owned :=
  match s.control.phase with
  | .running p | .paused p _ => done (enterPhase (.ended p) 0 s)
  | _ => refuse .locked s

def execAbort (r : Request) (s : State) : Step := takeRequest 0x66 r ownAbort s

/-- R170. The restart at the new limit replaces the one the request's own frame made. -/
def ownSilenceLimit (r : Request) (s : State) : Owned :=
  let limit := wordAt r.args 0
  if (1 ≤ limit ∧ limit < 100) ∨ 5000 < limit then refuse .badArgument s
  else done (restartSilence (s.setControl { s.control with silenceLimit := limit }))

def execSilenceLimit (r : Request) (s : State) : Step := takeRequest 0x67 r (ownSilenceLimit r) s

/-- R171. -/
def ownPhaseTimes (r : Request) (s : State) : Owned :=
  let autoLength := wordAt r.args 0
  let transitLength := wordAt r.args 2
  let driverLength := longAt r.args 4
  let endgameLength := longAt r.args 8
  if !s.control.phase.isBetween then refuse .locked s
  else if 60000 < autoLength ∨ 15000 < transitLength ∨ driverLength < 1000 ∨ 300000 < driverLength
      ∨ driverLength < endgameLength then refuse .badArgument s
  else done (s.setControl { s.control with autoLength, transitLength, driverLength, endgameLength })

def execPhaseTimes (r : Request) (s : State) : Step := takeRequest 0x60 r (ownPhaseTimes r) s

/-- READ_STATUS byte 1: paused-from or ended-from (R172). -/
def Phase.fromByte : Phase → Byte
  | .paused r _ | .ended r => byte r.code
  | _ => 0xFF

def State.stationCount (s : State) (x : StationState) : Nat := s.stations.records.count fun r => decide (r.state = x)
def State.nodeCount (s : State) (x : NodeState) : Nat := s.chain.nodes.count fun r => decide (r.state = x)

/-- The 45 data bytes of READ_STATUS (R172). -/
def statusData (s : State) : List Byte :=
  let c := s.control
  [byte c.phase.code, c.phase.fromByte] ++ be32 c.timer ++ [c.phase.causeByte, byte s.reportsLost.toNat]
    ++ be16 s.framers.ml.discards ++ (s.framers.rl.items.flatMap fun x => be16 x.discards)
    ++ ([StationState.vacant, .enrolled, .linked, .stale, .disabled, .ejected].map fun x => byte (s.stationCount x))
    ++ ([NodeState.absent, .present, .ready, .lost].map fun x => byte (s.nodeCount x))
    ++ [byte s.chain.halted.toNat] ++ be16 c.silenceLimit ++ be16 (c.silence.getD 0) ++ be16 c.autoLength
    ++ be16 c.transitLength ++ be32 c.driverLength ++ be32 c.endgameLength

/-- R172: the reports-lost flag is cleared once it has been read. -/
def ownReadStatus (s : State) : Owned := done (s.setReportsLost false) (statusData s)

def execReadStatus (r : Request) (s : State) : Step := takeRequest 0x01 r ownReadStatus s

end Sys2Proof.Machine
end

