-- ==== Sys2Proof/Machine/Management.lean ====
section
/-! DEFINITION. The management unit (11_management_requests.md): the resets, start-up, and the decoding of a MGMT payload
into the request it carries. -/

namespace Sys2Proof.Machine

/-! ### The resets -/

/-- START causes (R11). -/
inductive StartCause where
  | powerOn | fullReset
  deriving DecidableEq, Repr

def StartCause.code : StartCause → Nat
  | .powerOn => 1 | .fullReset => 2

/-- A framer at power-on and FULL_RESET: the line state follows its line, and the numbers of later transmissions do not
repeat those of earlier ones (R5, R7, R117, R125). -/
def PortState.restart (x : PortState) : PortState := { PortState.powerOn with line := x.line, taken := x.taken }

/-- Every block at its power-on values (R194, R196); the commands that wait are outside the part. -/
def powerOnBlocks (s : State) : State :=
  { framers := { ml := s.framers.ml.restart, rl := s.framers.rl.map PortState.restart }, stations := .powerOn
    classifier := .powerOn, map := .powerOn, claims := .fill 32 .free, credit := .powerOn, areas := powerOnAreas
    chain := .powerOn, control := .powerOn, tally := .powerOn, reportsLost := false, pending := s.pending }

/-- Power-on values, then the START notice (R194, R196). -/
def restart (cause : StartCause) (s : State) : State := notice .start [byte cause.code] (powerOnBlocks s)

/-- The reset input is released (R196). -/
def execPowerOn (s : State) : Step := .next (restart .powerOn s)

/-- FULL_RESET is not answered (R194). -/
def execFullReset (r : Request) (s : State) : Step :=
  if 46 < r.args.length then .next (countDiscard .ml (receiveIdle .ml s)) else .next (restart .fullReset s)

/-- A station record after FIELD_RESET (R15). -/
def Station.fieldReset (x : Station) : Station :=
  { x with state := .enrolled, recordedPort := none, quiet := none, held := false }

/-- The field reset of one station, with its departure from LINKED and its STATION_CHANGE notice where its state changes
(R15, R16, R30). -/
def resetStation (s : State) (n : StationId) : State :=
  let x := s.station n
  match x.state with
  | .vacant => s
  | .enrolled => s.setStation n x.fieldReset
  | .linked | .stale | .disabled | .ejected => changeStation n x.fieldReset none s

/-- The tally after FIELD_RESET: the goals stay (R173). -/
def Tally.fieldReset (t : Tally) : Tally := { Tally.powerOn with goals := t.goals }

/-- The field-reset effects of the chain controller, the tally and the phase controller (R133, R155, R173). -/
def resetMatch (s : State) : State :=
  { s with
    chain := { s.chain with census := none, halted := false }
    tally := s.tally.fieldReset
    control := { s.control with timer := 0, accumulator := 0 } }

/-- FIELD_RESET, once its checks have passed (R195). -/
def fieldReset (s : State) : State :=
  let s1 := (List.finRange 32).foldl resetStation s
  let s2 := resetMatch (emptyStations (fillCredit (clearClaims s1)))
  if s.control.phase.isEnded then enterPhase .setup 0 s2 else s2

/-- R195. -/
def ownFieldReset (s : State) : Owned :=
  if !s.control.phase.isBetween then refuse .locked s
  else if s.chain.census ≠ none then refuse .busy s
  else done (fieldReset s)

def execFieldReset (r : Request) (s : State) : Step := takeRequest 0x04 r ownFieldReset s

/-- KEEPALIVE changes nothing beyond the restart of the silence timer (R193). -/
def execKeepalive (r : Request) (s : State) : Step := takeRequest 0x02 r (fun s => done s) s

/-! ### Decoding a request -/

/-- A code outside the catalogue: UNKNOWN_REQUEST (R188 step 3). -/
def answerUnknown (code : Nat) (r : Request) (s : State) : Step :=
  takeRequest code r (refuse .unknownRequest) s

/-- The request of a code and its arguments (R188). -/
def takeCode (code : Nat) (r : Request) (s : State) : Step :=
  match code with
  | 0x01 => execReadStatus r s
  | 0x02 => execKeepalive r s
  | 0x03 => execFullReset r s
  | 0x04 => execFieldReset r s
  | 0x05 => execLinkReset r s
  | 0x10 => execEnrol r s
  | 0x11 => execUnenrol r s
  | 0x12 => execDisable r s
  | 0x13 => execEnable r s
  | 0x14 => execEject r s
  | 0x15 => execReadStation r s
  | 0x16 => execStaleLimit r s
  | 0x20 => execWriteRule r s
  | 0x21 => execReadRule r s
  | 0x22 => execRuleCount r s
  | 0x23 => execKindDefault r s
  | 0x30 => execMapWindow r s
  | 0x31 => execHide r s
  | 0x32 => execPartner r s
  | 0x33 => execProfile r s
  | 0x34 => execReadMap r s
  | 0x38 => execReadClaim r s
  | 0x3C => execCreditParams r s
  | 0x3D => execReadCredit r s
  | 0x40 => execArea r s
  | 0x41 => execJoinArea r s
  | 0x42 => execClearArea r s
  | 0x43 => execReadArea r s
  | 0x50 => execChainConfig r s
  | 0x51 => execCensus r s
  | 0x52 => execElementDirect r s
  | 0x53 => execResetNode r s
  | 0x54 => execReadNode r s
  | 0x60 => execPhaseTimes r s
  | 0x61 => execStage r s
  | 0x62 => execUnstage r s
  | 0x63 => execStart r s
  | 0x64 => execPause r s
  | 0x65 => execResume r s
  | 0x66 => execAbort r s
  | 0x67 => execSilenceLimit r s
  | 0x70 => execGoalConfig r s
  | 0x71 => execRuling r s
  | 0x72 => execPenalty r s
  | 0x73 => execAward r s
  | 0x74 => execReadScore r s
  | _ => answerUnknown code r s

/-- A MGMT payload past the port gate: shorter than 2 bytes it is dropped without a reply, and else it is a request
(R188 steps 2 to 5). -/
def takePayload (sequence : Byte) (payload : List Byte) (s : State) : Step :=
  match payload with
  | code :: tag :: args => takeCode code.toNat { sequence, tag, args } s
  | _ => .next (mgmtArrives s)

def execMgmtShort (sequence : Byte) (payload : List Byte) (s : State) : Step := takePayload sequence payload s

/-- A catalogued code is the request it names (notes/assumptions/3.md). -/
def execUnknownRequest (code : Byte) (r : Request) (s : State) : Step := takeCode code.toNat r s

end Sys2Proof.Machine
end

