-- ==== Sys2Proof/Machine/StationFrames.lean ====
section
/-! DEFINITION. The stages of an arriving frame (02_stations.md, 03_classification_and_routing.md): framer, port gate,
station acceptance, phase gate, rules and kind handler; and the arrival commands. -/

namespace Sys2Proof.Machine

/-- The kinds a record's kind permits (R17 step 4). -/
def permitted (kind : Kind) : Option StationKind → Bool
  | none => false
  | some .robot => decide (kind ≠ .pilot)
  | some .driver => decide (kind = .join) || decide (kind = .beacon) || decide (kind = .pilot)

/-- The recorded port of a LINKED station is brought up to date (R17 step 6, R18). -/
def roam (k : RadioPort) (n : StationId) (s : State) : State :=
  if (s.station n).isLinked then s.setStation n { s.station n with recordedPort := some k } else s

/-- The handler of a frame's kind (R53). -/
def handleFrame (k : RadioPort) (n : StationId) (f : Frame) (steer : Option AreaId) (s : State) : State :=
  match f.kind with
  | .join => handleJoin k n f.toFrameBody s
  | .beacon => handleBeacon k n s
  | .pilot | .telem => handleForward n f steer s
  | .element => handleElement n f steer s
  | .claim => handleClaim n f.toFrameBody s
  | .release => handleRelease n f.toFrameBody s
  | .answer | .arena | .mgmt | .report => s

/-- DENY (R45). -/
def denyFrame (k : RadioPort) (n : StationId) (f : Frame) (s : State) : State :=
  if f.kind = .join then answerJoin k n .rule f.sequence s else refuseFrame .rule n f s

/-- What a verdict does with the frame (R43 to R46). -/
def applyVerdict (u : Rule) (k : RadioPort) (n : StationId) (f : Frame) (s : State) : State :=
  match u.verdict with
  | .pass => handleFrame k n f none s
  | .copy => handleFrame k n f none (offerReport .bulk (copyFrame u.label k f) s)
  | .steer => handleFrame k n f (some u.steerArea) s
  | .deny => denyFrame k n f s
  | .drop => s
  | .disable => disableByVerdict n s

/-- The rule search and, where no rule matches, the kind default table (R42). -/
def applyRules (k : RadioPort) (n : StationId) (f : Frame) (s : State) : State :=
  match s.searchRules k n f with
  | some i => applyVerdict (s.rule i) k n f (countHit i s)
  | none =>
    match s.classifier.defaultFor f.kind with
    | .pass => handleFrame k n f none s
    | .drop => s

/-- The phase gate and what follows it (R40). -/
def passPhaseGate (k : RadioPort) (n : StationId) (f : Frame) (s : State) : State :=
  if phaseAdmits f.kind s.control.phase then applyRules k n f s else refuseFrame .phase n f s

/-- Station acceptance and what follows it (R17). -/
def stationFrame (k : RadioPort) (f : Frame) (s : State) : State :=
  match stationOf f.source with
  | none => s
  | some n =>
    if (s.station n).state = .vacant then
      if f.kind = .join ∧ 3 ≤ f.payload.length then answerJoin k n .notEnrolled f.sequence s else s
    else
      let s1 := restartQuiet n s
      if !permitted f.kind (s.station n).kind then s1
      else if f.kind ≠ .join ∧ f.kind ≠ .beacon ∧ !(s.station n).isLinked then s1
      else passPhaseGate k n f (roam k n s1)

/-- A delivery is discarded by the framer or dropped by the port gate, and counted (R6, R7, R38). -/
def discardArrival (p : Port) (s : State) : State := countDiscard p (receiveIdle p s)

/-- A frame has arrived on port p with its CRC right: the rest of R6, the port gate, and the stages after it. -/
def arrival (p : Port) (f : Frame) (s : State) : Step :=
  if f.acceptable && gateAccepts p f then
    match p with
    | .rl k => .next (stationFrame k f (receiveIdle p s))
    | .ml => takePayload f.sequence f.payload s
  else .next (discardArrival p s)

def execJoin (p : Port) (f : FrameBody) (s : State) : Step := arrival p { toFrameBody := f, kind := .join } s
def execBeacon (p : Port) (f : FrameBody) (s : State) : Step := arrival p { toFrameBody := f, kind := .beacon } s
def execPilot (p : Port) (f : FrameBody) (s : State) : Step := arrival p { toFrameBody := f, kind := .pilot } s
def execTelem (p : Port) (f : FrameBody) (s : State) : Step := arrival p { toFrameBody := f, kind := .telem } s
def execElement (p : Port) (f : FrameBody) (s : State) : Step := arrival p { toFrameBody := f, kind := .element } s
def execClaim (p : Port) (f : FrameBody) (s : State) : Step := arrival p { toFrameBody := f, kind := .claim } s
def execRelease (p : Port) (f : FrameBody) (s : State) : Step := arrival p { toFrameBody := f, kind := .release } s

/-- A frame the port gate does not accept (R38); one that it accepts is the frame it is (notes/assumptions/3.md). -/
def execPortGateDrop (p : Port) (f : Frame) (s : State) : Step := arrival p f s

/-- A delivery that fails a check of R6; one that passes them is the frame it is (notes/assumptions/3.md). -/
def execFrameDiscard (p : Port) (bytes : List Byte) (s : State) : Step :=
  match parseFrame bytes with
  | none => .next (discardArrival p s)
  | some f => arrival p f s

end Sys2Proof.Machine
end

