-- ==== Sys2Proof/Machine/Dispatch.lean ====
section
/-! DEFINITION. Which meaning each command has: one arm for each row of spec/opcode_table.json. -/

namespace Sys2Proof.Machine

def exec (i : Instr) (s : State) : Host.Outcome State Fault Refusal :=
  match i with
  | .powerOn => Sys2Proof.Machine.execPowerOn s
  | .receiveStart p bytes => Sys2Proof.Machine.execReceiveStart p bytes s
  | .frameDiscard p bytes => Sys2Proof.Machine.execFrameDiscard p bytes s
  | .portGateDrop p f => Sys2Proof.Machine.execPortGateDrop p f s
  | .join p f => Sys2Proof.Machine.execJoin p f s
  | .beacon p f => Sys2Proof.Machine.execBeacon p f s
  | .pilot p f => Sys2Proof.Machine.execPilot p f s
  | .telem p f => Sys2Proof.Machine.execTelem p f s
  | .element p f => Sys2Proof.Machine.execElement p f s
  | .claim p f => Sys2Proof.Machine.execClaim p f s
  | .release p f => Sys2Proof.Machine.execRelease p f s
  | .mgmtShort sequence payload => Sys2Proof.Machine.execMgmtShort sequence payload s
  | .unknownRequest code r => Sys2Proof.Machine.execUnknownRequest code r s
  | .readStatus r => Sys2Proof.Machine.execReadStatus r s
  | .keepalive r => Sys2Proof.Machine.execKeepalive r s
  | .fullReset r => Sys2Proof.Machine.execFullReset r s
  | .fieldReset r => Sys2Proof.Machine.execFieldReset r s
  | .linkReset r => Sys2Proof.Machine.execLinkReset r s
  | .enrol r => Sys2Proof.Machine.execEnrol r s
  | .unenrol r => Sys2Proof.Machine.execUnenrol r s
  | .disable r => Sys2Proof.Machine.execDisable r s
  | .enable r => Sys2Proof.Machine.execEnable r s
  | .eject r => Sys2Proof.Machine.execEject r s
  | .readStation r => Sys2Proof.Machine.execReadStation r s
  | .staleLimit r => Sys2Proof.Machine.execStaleLimit r s
  | .writeRule r => Sys2Proof.Machine.execWriteRule r s
  | .readRule r => Sys2Proof.Machine.execReadRule r s
  | .ruleCount r => Sys2Proof.Machine.execRuleCount r s
  | .kindDefault r => Sys2Proof.Machine.execKindDefault r s
  | .mapWindow r => Sys2Proof.Machine.execMapWindow r s
  | .hide r => Sys2Proof.Machine.execHide r s
  | .partner r => Sys2Proof.Machine.execPartner r s
  | .partnerRemove r => Sys2Proof.Machine.execPartnerRemove r s
  | .profile r => Sys2Proof.Machine.execProfile r s
  | .readMap r => Sys2Proof.Machine.execReadMap r s
  | .readClaim r => Sys2Proof.Machine.execReadClaim r s
  | .creditParams r => Sys2Proof.Machine.execCreditParams r s
  | .readCredit r => Sys2Proof.Machine.execReadCredit r s
  | .area r => Sys2Proof.Machine.execArea r s
  | .joinArea r => Sys2Proof.Machine.execJoinArea r s
  | .clearArea r => Sys2Proof.Machine.execClearArea r s
  | .readArea r => Sys2Proof.Machine.execReadArea r s
  | .chainConfig r => Sys2Proof.Machine.execChainConfig r s
  | .census r => Sys2Proof.Machine.execCensus r s
  | .elementDirect r => Sys2Proof.Machine.execElementDirect r s
  | .resetNode r => Sys2Proof.Machine.execResetNode r s
  | .readNode r => Sys2Proof.Machine.execReadNode r s
  | .phaseTimes r => Sys2Proof.Machine.execPhaseTimes r s
  | .stage r => Sys2Proof.Machine.execStage r s
  | .unstage r => Sys2Proof.Machine.execUnstage r s
  | .start r => Sys2Proof.Machine.execStart r s
  | .pause r => Sys2Proof.Machine.execPause r s
  | .resume r => Sys2Proof.Machine.execResume r s
  | .abort r => Sys2Proof.Machine.execAbort r s
  | .silenceLimit r => Sys2Proof.Machine.execSilenceLimit r s
  | .goalConfig r => Sys2Proof.Machine.execGoalConfig r s
  | .ruling r => Sys2Proof.Machine.execRuling r s
  | .penalty r => Sys2Proof.Machine.execPenalty r s
  | .award r => Sys2Proof.Machine.execAward r s
  | .readScore r => Sys2Proof.Machine.execReadScore r s
  | .transmitterTake p => Sys2Proof.Machine.execTransmitterTake p s
  | .transmitComplete p transmission => Sys2Proof.Machine.execTransmitComplete p transmission s
  | .lineDown p => Sys2Proof.Machine.execLineDown p s
  | .lineUp p => Sys2Proof.Machine.execLineUp p s
  | .reply e position tag status value => Sys2Proof.Machine.execReply e position tag status value s
  | .probeReply e position nodeKind => Sys2Proof.Machine.execProbeReply e position nodeKind s
  | .sense e position code => Sys2Proof.Machine.execSense e position code s
  | .chainMessageDiscard e bytes => Sys2Proof.Machine.execChainMessageDiscard e bytes s
  | .chainSendNext e => Sys2Proof.Machine.execChainSendNext e s
  | .dequeue => Sys2Proof.Machine.execDequeue s
  | .pendingSend => Sys2Proof.Machine.execPendingSend s
  | .quietExpiry n => Sys2Proof.Machine.execQuietExpiry n s
  | .holdExpiry q => Sys2Proof.Machine.execHoldExpiry q s
  | .barExpiry q => Sys2Proof.Machine.execBarExpiry q s
  | .phaseExpiry => Sys2Proof.Machine.execPhaseExpiry s
  | .silenceExpiry => Sys2Proof.Machine.execSilenceExpiry s
  | .creditTick => Sys2Proof.Machine.execCreditTick s
  | .replyTimeout t => Sys2Proof.Machine.execReplyTimeout t s
  | .probeTimeout => Sys2Proof.Machine.execProbeTimeout s
  | .settleExpiry g => Sys2Proof.Machine.execSettleExpiry g s
  | .finalSettleExpiry => Sys2Proof.Machine.execFinalSettleExpiry s

end Sys2Proof.Machine
end

