-- ==== Sys2Proof/Machine/Steps.lean ====
section
/-! DEFINITION. The steps the part takes of its own when no command waits, each as the command of its row, and the
passage of time when none is due (notes/assumptions/6.md). -/

namespace Sys2Proof.Machine

/-- A timer that runs and has no time left. -/
def ranOut (t : Option Nat) : Bool := decide (t = some 0)

/-- A take, a pending send or a dequeue whose conditions hold (R107, R124, R147). -/
def State.dueSend (s : State) : Option Instr :=
  match [Port.ml, .rl 0, .rl 1, .rl 2, .rl 3].find? fun p => (s.takeReady p).isSome with
  | some p => some (.transmitterTake p)
  | none =>
    if s.pendingReady.isSome then some .pendingSend
    else if s.dequeueReady.isSome then some .dequeue
    else none

/-- A match-time timer that has run out: the tick, a hold, a bar (R83, R86, R160). -/
def State.dueInMatch (s : State) : Option Instr :=
  if s.control.phase.isRunning then
    if Config.tickLength ≤ s.control.accumulator then some .creditTick
    else match s.claims.find? fun e => e.hold.any fun h => decide (h.remaining = 0) with
      | some q => some (.holdExpiry q)
      | none => (s.claims.find? fun e => e.bar.any fun b => decide (b.remaining = 0)).map .barExpiry
  else none

/-- A real-time timer that has run out (R20, R114, R142, R169, R179, R184). -/
def State.dueInRealTime (s : State) : Option Instr :=
  match s.stations.records.find? fun x => ranOut x.quiet with
  | some n => some (.quietExpiry n)
  | none =>
    if ranOut s.control.silence then some .silenceExpiry
    else match s.chain.tags.find? fun t => t.any fun r => decide (r.timer = 0) with
      | some t => some (.replyTimeout t)
      | none =>
        if s.chain.census.any fun c => decide (c.timer = 0) then some .probeTimeout
        else match s.tally.settle.find? ranOut with
          | some g => some (.settleExpiry g)
          | none => if s.tally.final = .running 0 then some .finalSettleExpiry else none

/-- The phase timer of a running phase has run out (R157). -/
def State.duePhase (s : State) : Option Instr :=
  if s.control.phase.isRunning && decide (s.control.timer = 0) then some .phaseExpiry else none

/-- The step of the part's own that comes next, if one is due. Where several are, the manual lets any come first; the
order here is the model's. -/
def State.due (s : State) : Option Instr :=
  s.dueSend.or (s.dueInMatch.or (s.dueInRealTime.or s.duePhase))

/-- One step on an empty queue: the step that is due, or else 1 ms passes. -/
def ownStep (s : State) : Step :=
  match s.due with
  | some c => exec c s
  | none => .next (elapse 1 s)

end Sys2Proof.Machine
end

