-- ==== Sys2Proof/Safety.lean ====
section
/-! DEFINITION. What it means that only output differs between two states, and the conditions the manual says the part
keeps: the ones the statements are about. -/

namespace Sys2Proof.Machine

/-- What offering frames to the queue manager may do (R120 to R122): t is s with frames added at the tails of areas and with
counts moved. Every block's state is as before, no stored frame is lost, none enters an area joined to CHAIN, and no
area is laid out or joined anew; the port framers keep everything but the discard counts of the radio ports. -/
structure OutputOnly (s t : State) : Prop where
  stations : t.stations = s.stations
  classifier : t.classifier = s.classifier
  map : t.map = s.map
  claims : t.claims = s.claims
  credit : t.credit = s.credit
  chain : t.chain = s.chain
  control : t.control = s.control
  tally : t.tally = s.tally
  pending : t.pending = s.pending
  ml : t.framers.ml = s.framers.ml
  radio : ∀ k, t.framers.rl.get k = { s.framers.rl.get k with discards := (t.framers.rl.get k).discards }
  counted : ∀ k, (s.framers.rl.get k).discards ≤ Config.maxCount → (t.framers.rl.get k).discards ≤ Config.maxCount
  layout : ∀ a, (t.area a).start = (s.area a).start ∧ (t.area a).stop = (s.area a).stop ∧ (t.area a).join = (s.area a).join
  stored : ∀ a, (s.area a).frames <+: (t.area a).frames
  commands : ∀ a, (s.area a).servesConsumer .chain = true → (t.area a).frames = (s.area a).frames
  room : ∀ a, (s.area a).frames.length ≤ (s.area a).capacity → (t.area a).frames.length ≤ (t.area a).capacity
  peak : ∀ a, (s.area a).frames.length ≤ (s.area a).peak → (t.area a).frames.length ≤ (t.area a).peak
  highest : ∀ a, (s.area a).frames.length ≤ (s.area a).capacity →
    (t.area a).peak ≤ max (s.area a).peak (s.area a).capacity
  drops : ∀ a, (s.area a).drops ≤ Config.maxCount → (t.area a).drops ≤ Config.maxCount
  lost : s.reportsLost = true → t.reportsLost = true

/-- The values the reset tables give after power-on and FULL_RESET (R15, R52, R58, R72, R101, R117, R133, R155, R173, R192), but
for the START notice that area 0 then holds. -/
structure PowerOnValues (t : State) : Prop where
  stations : ∀ n, t.station n =
    { state := .vacant, kind := none, alliance := 0, team := 0, partner := none, recordedPort := none, quiet := none
      held := false }
  staleLimit : t.stations.staleLimit = 750
  rules : ∀ i, t.rule i =
    { kinds := 0, sourceClass := .any, alliances := 0, stationValue := 0, stationMask := 0, ports := 0, phases := 0
      verdict := .pass, steerArea := 0, label := 0, hits := 0 }
  active : t.classifier.active = 0
  defaults : ∀ k, t.classifier.defaults.get k = .pass
  windows : (∀ a, t.map.homes.get a = { base := 1, limit := 0 }) ∧ t.map.shared = { base := 1, limit := 0 }
  sets : ∀ q, t.map.hideSet.get q = false ∧ t.map.partners.get q = false
  profiles : ∀ q, t.profile q = { maxHold := 10000, barTime := 0, costLow := 16, costHigh := 16 }
  claims : ∀ q, t.claim q = { hold := none, bar := none, waiters := [] }
  credit : t.credit.rate = 4 ∧ t.credit.burst = 4 ∧ t.credit.cap = 64 ∧ ∀ n, t.balance n = 64
  areaZero : (t.area 0).start = 0 ∧ (t.area 0).stop = 16
    ∧ (t.area 0).join = some { consumer := .port .ml, lane := .normal } ∧ (t.area 0).drops = 0 ∧ (t.area 0).notified = false
  areas : ∀ a, a ≠ 0 → t.area a =
    { start := 0, stop := 0, join := none, frames := [], peak := 0, drops := 0, notified := false }
  framers : ∀ p, (t.port p).receive = .idle ∧ (t.port p).discards = 0 ∧ (t.port p).transmitter = none
  nodes : ∀ q, t.node q = { state := .absent, kind := none, servingEnd := .ca, misses := 0 }
  chain : t.chain.mode = .line ∧ t.chain.replyTimeout = 20 ∧ (∀ k, t.tag k = none) ∧ t.chain.slot = none
    ∧ t.chain.census = none ∧ t.chain.halted = false ∧ ∀ e, t.side e = { onLine := none, waiting := [] }
  control : t.control =
    { phase := .setup, timer := 0, autoLength := 15000, transitLength := 3000, driverLength := 120000
      endgameLength := 30000, silenceLimit := 1000, silence := none, accumulator := 0 }
  goals : ∀ g, t.goal g =
    { position := none, wAuto := 0, wDriver := 0, wEndgame := 0, tolerance := 0, settleTime := 100 }
  records : ∀ g a p, t.record g a p = { main := 0, check := 0, state := .agreed, ruled := 0 }
  points : ∀ a, t.tally.bonus.get a = 0 ∧ t.tally.penalty.get a = 0
  settle : (∀ g, t.tally.settle.get g = none) ∧ t.tally.final = .idle
  reportsLost : t.reportsLost = false

/-- The chain's halted flag is set exactly while the phase is PAUSED (R145). -/
def State.haltFits (s : State) : Prop := s.chain.halted = s.control.phase.isPaused

/-- Every balance lies between 0 and 16 × burst sixteenths (R101). -/
def State.creditFits (s : State) : Prop := ∀ n, s.balance n ≤ 16 * s.credit.burst

/-- Every tally count lies in 0..255 (R175). -/
def State.tallyFits (s : State) : Prop :=
  ∀ g a p, (s.record g a p).main ≤ Config.maxTally ∧ (s.record g a p).check ≤ Config.maxTally
    ∧ (s.record g a p).ruled ≤ Config.maxTally

/-- R116: a layout lies in the 256 slots; no area holds more frames than its capacity or than its peak; a disabled area has no join; no two
enabled areas share a slot; a (consumer, lane) pair is joined to at most one area. -/
structure State.QueuesFit (s : State) : Prop where
  inMemory : ∀ a, (s.area a).start ≤ 256 ∧ (s.area a).stop ≤ 256
  room : ∀ a, (s.area a).frames.length ≤ (s.area a).capacity
  peak : ∀ a, (s.area a).frames.length ≤ (s.area a).peak
  disabled : ∀ a, (s.area a).enabled = false → (s.area a).join = none
  apart : ∀ a b, a ≠ b → (s.area a).enabled = true → (s.area b).enabled = true →
    (s.area a).stop ≤ (s.area b).start ∨ (s.area b).stop ≤ (s.area a).start
  onePair : ∀ a b, (s.area a).join = (s.area b).join → (s.area a).join ≠ none → a = b

/-- The claim table (R73, R75, R77, R87, R89, R90, R95): an entry has at most 4 waiters; a station that holds or waits
is a LINKED robot; a robot waits once at most and not where it holds; it holds at most 2 entries, and at most
1 while it waits; on a FREE entry only robots of the barred alliance wait; outside the match, and at a partner, the entry
is FREE with no bar and no waiters. -/
structure State.ClaimsFit (s : State) : Prop where
  lists : ∀ q, (s.claim q).waiters.length ≤ Config.maxWaiters
  linked : ∀ q n, (s.claim q).heldBy n = true ∨ (s.claim q).waits n = true →
    (s.station n).state = .linked ∧ (s.station n).kind = some .robot
  once : ∀ p q n, (s.claim p).waits n = true → (s.claim q).waits n = true → p = q
  distinct : ∀ q, ((s.claim q).waiters.map Waiter.station).Nodup
  apart : ∀ q n, (s.claim q).heldBy n = true → (s.claim q).waits n = false
  held : ∀ n, s.claimCount n ≤ Config.maxClaims
  heldWaiting : ∀ q n, (s.claim q).waits n = true → s.claimCount n < Config.maxClaims
  barred : ∀ q, (s.claim q).hold = none → ∀ w ∈ (s.claim q).waiters, s.eligible (s.claim q) w = false
  idle : s.control.phase.isIdle = true → ∀ q, s.claim q = .free
  partners : ∀ q, s.map.partners.get q = true → s.claim q = .free

/-- Every port's discard count lies in 0..65,535 (R7). -/
def State.discardsFit (s : State) : Prop := ∀ p, (s.port p).discards ≤ Config.maxCount

/-- A node record's misses are 0–3, and a record never found has no kind (08_the_field_chain.md, Node records). -/
def State.nodesFit (s : State) : Prop :=
  ∀ q, (s.node q).misses ≤ Config.maxMisses ∧ ((s.node q).state = .absent → (s.node q).misses = 0)

/-- Every count and total of the part lies in its range: the counts of drops, hits, misses, ticks and points, the tally's
counts and balances, the active rules (R50), the peaks (R116), the partners (R66), the waiters of an entry and the
entries a robot holds (R73, R77). -/
structure State.CountsFit (s : State) : Prop where
  discards : s.discardsFit
  credit : s.creditFits
  tally : s.tallyFits
  nodes : s.nodesFit
  hits : ∀ i, (s.rule i).hits ≤ Config.maxCount
  drops : ∀ a, (s.area a).drops ≤ Config.maxCount
  points : ∀ a, s.tally.bonus.get a ≤ Config.maxCount ∧ s.tally.penalty.get a ≤ Config.maxCount
  accumulator : s.control.accumulator ≤ Config.tickLength
  active : s.classifier.active ≤ 48
  peaks : ∀ a, (s.area a).peak ≤ 256
  partners : s.map.partners.count id ≤ 8
  waiters : ∀ q, (s.claim q).waiters.length ≤ Config.maxWaiters
  claims : ∀ n, s.claimCount n ≤ Config.maxClaims

/-- A robot's held flag is set exactly when the phase is DRIVER or ENDGAME, it has a partner, and the partner's record is
not LINKED; no other record's flag is set (R32). -/
def State.heldFits (s : State) : Prop :=
  ∀ n, (s.station n).held = ((s.station n).isRobot && s.holdCondition n)

/-- A PILOT frame is stored only while the phase is DRIVER or ENDGAME (R127). -/
def State.pilotFits (s : State) : Prop :=
  s.control.phase.isDriven = false → ∀ a, ∀ f ∈ (s.area a).frames, f.kind ≠ .pilot

/-! ### The passage of a station frame -/

/-- The record of station n has heard a frame on port k: the framer is idle again, the quiet timer restarted, and a LINKED
station's recorded port is the ingress port (R5, R17, R18). -/
def State.heard (s : State) (k : RadioPort) (n : StationId) : State := roam k n (restartQuiet n (receiveIdle (.rl k) s))

/-- A frame the framer and the port gate accept on RL port k, from station n, which station acceptance and the phase gate
admit (R6, R17, R38, R40). -/
structure ComesToRules (k : RadioPort) (n : StationId) (f : Frame) (s : State) : Prop where
  accepted : f.acceptable = true
  gate : gateAccepts (.rl k) f = true
  source : stationOf f.source = some n
  enrolled : (s.station n).state ≠ .vacant
  kind : permitted f.kind (s.station n).kind = true
  linked : f.kind = .join ∨ f.kind = .beacon ∨ (s.station n).state = .linked
  phase : phaseAdmits f.kind s.control.phase = true

/-- The frame comes to the handler of its kind, with this steer area and in this state: no active rule matches it and the
default of its kind is PASS, or the first that matches says PASS, COPY or STEER (R42 to R44). -/
inductive ComesToHandler (k : RadioPort) (n : StationId) (f : Frame) (s : State) : Option AreaId → State → Prop where
  | byDefault (h : ComesToRules k n f s) (none_ : s.searchRules k n f = none)
      (pass : s.classifier.defaultFor f.kind = .pass) : ComesToHandler k n f s none (s.heard k n)
  | byPass (h : ComesToRules k n f s) (i : RuleIx) (first : s.searchRules k n f = some i)
      (verdict : (s.rule i).verdict = .pass) : ComesToHandler k n f s none (countHit i (s.heard k n))
  | byCopy (h : ComesToRules k n f s) (i : RuleIx) (first : s.searchRules k n f = some i)
      (verdict : (s.rule i).verdict = .copy) :
      ComesToHandler k n f s none (offerReport .bulk (copyFrame (s.rule i).label k f) (countHit i (s.heard k n)))
  | bySteer (h : ComesToRules k n f s) (i : RuleIx) (first : s.searchRules k n f = some i)
      (verdict : (s.rule i).verdict = .steer) :
      ComesToHandler k n f s (some (s.rule i).steerArea) (countHit i (s.heard k n))

end Sys2Proof.Machine
end

