-- ==== Sys2Proof/WellFormed.lean ====
section
/-! DEFINITION. Which commands can come about as their row says: an accepted frame has valid numbers and at most 48
payload bytes (R6), a station frame comes on an RL port (R38), a discard is of a delivery that fails a check. A command
that is not well-formed still has a meaning: what its bytes do (notes/assumptions/3.md). -/

namespace Sys2Proof

/-- A station frame the port gate lets through (R6, R38). -/
def stationFrameOk (p : Port) (f : FrameBody) : Bool := decide (p ≠ .ml) && f.acceptable

/-- A request's argument bytes: a MGMT payload has at most 48 bytes, two of which are the code and the tag. -/
def requestOk (r : Request) : Bool := decide (r.args.length ≤ 46)

def Instr.wellFormed (i : Instr) : Bool :=
  match i with
  | .frameDiscard _ bs => (parseFrame bs).isNone
  | .portGateDrop p f => f.acceptable && !gateAccepts p f
  | .join p f | .beacon p f | .pilot p f | .telem p f | .element p f | .claim p f | .release p f => stationFrameOk p f
  | .mgmtShort _ payload => decide (payload.length < 2)
  | .unknownRequest code r => requestOk r && (argumentLength code.toNat).isNone
  | .partner r => requestOk r && !removesPartner r
  | .partnerRemove r => requestOk r && removesPartner r
  | .reply _ position _ status _ => (positionOf position).isSome && decide (status.toNat ≤ 2)
  | .probeReply _ position nodeKind => (positionOf position).isSome && decide (nodeKind.toNat ≤ 6)
  | .sense _ position code => (positionOf position).isSome && decide (code.toNat % 16 ≠ 0)
  | .chainMessageDiscard e bs => decide (chainCommand e bs = .chainMessageDiscard e bs)
  | i => i.request?.all fun (_, r) => requestOk r

end Sys2Proof
end

