-- ==== Sys2Proof/Certificates/Slice0/Obligations.lean ====
section
/-! DEFINITION. The statements about the model, in the order of the manual's blocks. -/

open Sys2Proof Sys2Proof.Machine

/-! ### The queue, time, the resets -/

/-- The command at the front of the queue is run on the queue's rest. The queue is the model's own (notes/assumptions/27.md). -/
def Obligations.StepTakesTheFrontCommand : Prop :=
  ∀ (c : Instr) (rest : List Instr) (s : State),
    step { s with pending := c :: rest } = exec c { s with pending := rest }

/-- On an empty queue the part takes a step of its own that is due, or else 1 ms passes. A take, a pending send and a dequeue
are due when their conditions hold, an expiry of real time when its timer stands at 0, and a credit tick or an expiry of match
time when its timer has run out and the phase is a running one. That the steps come on an empty queue, and which comes first
where several are due, is the model's choice (notes/assumptions/6.md). -/
def Obligations.EmptyQueueTakesAStepOfItsOwn : Prop :=
  ∀ s : State, s.pending = [] →
    let running := s.control.phase.isRunning = true
    let free := ∃ t, s.tag t = none
    let filled := fun c : Consumer => ∃ l a, s.joinedArea c l = some a ∧ (s.area a).frames ≠ []
    let due : Instr → Prop := fun
      | .transmitterTake p => (s.port p).transmitter = none ∧ (s.port p).line = .up ∧ filled (.port p)
      | .pendingSend => s.chain.slot ≠ none ∧ s.chain.census = none ∧ free
      | .dequeue =>
        s.chain.halted = false ∧ s.chain.census = none ∧ s.chain.slot = none ∧ free ∧ filled .chain
      | .creditTick => running ∧ 10 ≤ s.control.accumulator
      | .holdExpiry q => running ∧ ∃ h, (s.claim q).hold = some h ∧ h.remaining = 0
      | .barExpiry q => running ∧ ∃ b, (s.claim q).bar = some b ∧ b.remaining = 0
      | .quietExpiry n => (s.station n).quiet = some 0
      | .silenceExpiry => s.control.silence = some 0
      | .replyTimeout t => ∃ r, s.tag t = some r ∧ r.timer = 0
      | .probeTimeout => ∃ c, s.chain.census = some c ∧ c.timer = 0
      | .settleExpiry g => s.tally.settle.get g = some 0
      | .finalSettleExpiry => s.tally.final = .running 0
      | .phaseExpiry => running ∧ s.control.timer = 0
      | _ => False
    (∀ c, s.due = some c → due c ∧ step s = exec c s)
    ∧ (s.due = none → (∀ c, ¬due c) ∧ step s = .next (elapse 1 s))

/-- No command faults and none is refused: every command answers a next state, with the queue as it was. -/
def Obligations.EveryCommandAnswersANextState : Prop :=
  ∀ (c : Instr) (s : State), ∃ t, exec c s = .next t ∧ t.pending = s.pending

/-- As n ms pass, real-time timers count in every phase, and match-time timers count in the running phases alone; the credit
ticks that fall within n ms of match time refill the balances, one for each 10 ms; nothing else changes. That time passes in
whole ms is the model's choice (notes/assumptions/7.md), and so is that a tick due at the very end of the n ms waits there to be
taken (notes/assumptions/25.md). -/
def Obligations.TimersCountRealOrMatchTime : Prop :=
  ∀ (n : Nat) (s : State), let t := elapse n s
    let c := s.control
    (∀ k, t.station k = { s.station k with quiet := (s.station k).quiet.map (· - n) })
    ∧ (∀ k, t.tag k = (s.tag k).map fun r => { r with timer := r.timer - n })
    ∧ t.chain.census = s.chain.census.map (fun c => { c with timer := c.timer - n })
    ∧ t.control.silence = c.silence.map (· - n)
    ∧ (∀ g, t.tally.settle.get g = (s.tally.settle.get g).map (· - n))
    ∧ (∀ r, s.tally.final = .running r → t.tally.final = .running (r - n))
    ∧ (s.tally.final = .idle ∨ s.tally.final = .done → t.tally.final = s.tally.final)
    ∧ (c.phase.isRunning = true →
        (∀ q, t.claim q = { s.claim q with
          hold := (s.claim q).hold.map fun h => { h with remaining := h.remaining - n }
          bar := (s.claim q).bar.map fun b => { b with remaining := b.remaining - n } })
        ∧ t.control.timer = c.timer - n
        ∧ (c.accumulator ≤ 10 → ∃ ticks,
            c.accumulator + n = 10 * ticks + t.control.accumulator ∧ t.control.accumulator ≤ 10
            ∧ (n = 0 ∧ ticks = 0 ∨ 0 < t.control.accumulator)
            ∧ (ticks = 0 → t.credit = s.credit)
            ∧ (0 < ticks → ∀ k, t.balance k = min (16 * s.credit.burst) (s.balance k + ticks * s.credit.rate))))
    ∧ (c.phase.isRunning = false →
        t.claims = s.claims ∧ t.credit = s.credit ∧ t.control.timer = c.timer ∧ t.control.accumulator = c.accumulator)
    ∧ t = { s with
        stations := { s.stations with records := t.stations.records }
        claims := t.claims
        credit := { s.credit with balances := t.credit.balances }
        chain := { s.chain with tags := t.chain.tags, census := t.chain.census }
        control := { c with timer := t.control.timer, silence := t.control.silence, accumulator := t.control.accumulator }
        tally := { s.tally with settle := t.tally.settle, final := t.tally.final } }

/-- The machine after reset holds the power-on values, an empty queue, and the START notice with cause POWER_ON in area 0.
POWER_ON and FULL_RESET restore the same values and store the START notice with its cause; the line states stay and FULL_RESET
is not answered. That the START notice is stored already in the state after reset, and that the line states and the queue stay,
is the model's choice (notes/assumptions/14.md, 15.md). -/
def Obligations.ResetsRestoreThePowerOnValues : Prop :=
  (PowerOnValues State.reset ∧ State.reset.pending = []
     ∧ (State.reset.area 0).frames = [{ source := 0, destination := 0, sequence := 0, label := 0, kind := .report
                                        payload := [0x80, 0, 0, 1] }])
  ∧ (∀ (c : Instr) (cause : Byte) (s : State),
       (c = .powerOn ∧ cause = 1 ∨ ∃ r : Request, c = .fullReset r ∧ r.args.length ≤ 46 ∧ cause = 2) →
       ∃ t, exec c s = .next t ∧ PowerOnValues t ∧ t.pending = s.pending ∧ (∀ p, (t.port p).line = (s.port p).line)
         ∧ (t.area 0).frames = [{ source := 0, destination := 0, sequence := 0, label := 0, kind := .report
                                  payload := [0x80, 0, 0, cause] }])

/-- FIELD_RESET is refused LOCKED outside SETUP and ENDED and BUSY while a census runs. Otherwise every enrolled station is
ENROLLED anew, claims, records, points and the areas not joined to ML are emptied (from ENDED, SETUP is then entered and told),
balances are full, and the phase is SETUP; tables, map, goals, lengths and limits, node and tag records, the outgoing sides, the
transmitters, area layout, counters and ML's frames are kept. Where no claim is held and ML's area has room, that area takes one
STATION_CHANGE for each record that changes state, then PHASE_CHANGE (from ENDED) and the reply, and no frame is dropped. The
order of the stations is left open here (notes/assumptions/18.md). -/
def Obligations.FieldResetPreparesTheNextMatch : Prop :=
  ∀ (r : Request) (s : State), r.args.length ≤ 46 →
    (s.control.phase.isBetween = false → exec (.fieldReset r) s = .next (reply 0x04 r (refuse .locked (mgmtArrives s))))
    ∧ (s.control.phase.isBetween = true → s.chain.census ≠ none →
        exec (.fieldReset r) s = .next (reply 0x04 r (refuse .busy (mgmtArrives s))))
    ∧ (s.control.phase.isBetween = true → s.chain.census = none → ∃ t, exec (.fieldReset r) s = .next t
      ∧ t.control = { s.control with
          phase := .setup, timer := 0, accumulator := 0
          silence := if s.control.silenceLimit = 0 then none else some s.control.silenceLimit }
      ∧ (∀ n, (s.station n).state ≠ .vacant →
          t.station n = { s.station n with state := .enrolled, recordedPort := none, quiet := none, held := false })
      ∧ (∀ n, (s.station n).state = .vacant → t.station n = { s.station n with held := (t.station n).held })
      ∧ t.stations.staleLimit = s.stations.staleLimit
      ∧ (∀ q, t.claim q = { hold := none, bar := none, waiters := [] })
      ∧ (∀ n, t.balance n = s.credit.cap) ∧ t.credit.rate = s.credit.rate ∧ t.credit.burst = s.credit.burst
      ∧ (∀ a, (s.area a).servesConsumer .chain = true → (t.area a).frames = [])
      ∧ (∀ a, (s.area a).servesConsumer (.port .ml) = false → ∀ f ∈ (t.area a).frames,
          s.control.phase ≠ .setup ∧ f = { source := 0, destination := 63, sequence := 0, label := 0, kind := .arena
                                           payload := [1, 0, 0, 0, 0, 0, 0] })
      ∧ (∀ a, (s.area a).servesConsumer (.port .ml) = true → (s.area a).frames <+: (t.area a).frames)
      ∧ (∀ a, (t.area a).start = (s.area a).start ∧ (t.area a).stop = (s.area a).stop ∧ (t.area a).join = (s.area a).join)
      ∧ t.chain = { s.chain with halted := false, tags := t.chain.tags }
      ∧ (∀ k, t.tag k = (s.tag k).map fun z => match z.origin with
          | .robot (some n) sequence =>
            if (s.station n).state = .linked then { z with origin := .robot none sequence } else z
          | _ => z)
      ∧ (∀ p, t.port p = { s.port p with
          receive := if p = .ml then .idle else (s.port p).receive, discards := (t.port p).discards })
      ∧ t.tally.goals = s.tally.goals
      ∧ (∀ g a p, t.record g a p = { main := 0, check := 0, state := .agreed, ruled := 0 })
      ∧ (∀ a, t.tally.bonus.get a = 0 ∧ t.tally.penalty.get a = 0) ∧ t.tally.final = .idle
      ∧ (∀ g, t.tally.settle.get g = none)
      ∧ t.classifier = s.classifier ∧ t.map = s.map
      ∧ (s.reportsLost = true → t.reportsLost = true) ∧ t.pending = s.pending
      ∧ (∃ order : List StationId, order.Perm (List.finRange 32) ∧
          let ends := order.foldl (fun u n =>
            let x := u.station n
            let anew := { x with state := .enrolled, recordedPort := none, quiet := none, held := false }
            if x.state = .vacant then u
            else if x.state = .enrolled then u.setStation n anew
            else changeStation n anew none u) (mgmtArrives s)
          let zero : TallyRecord := { main := 0, check := 0, state := .agreed, ruled := 0 }
          let emptied : State := { ends with
            claims := .fill 32 { hold := none, bar := none, waiters := [] }
            credit := { ends.credit with balances := .fill 32 (16 * ends.credit.burst) }
            areas := ends.areas.map fun x => if x.servesConsumer (.port .ml) then x else { x with frames := [] }
            chain := { ends.chain with census := none, halted := false }
            tally := { goals := ends.tally.goals, settle := .fill 8 none
                       records := .fill 8 (.fill 4 { auto := zero, driver := zero, endgame := zero })
                       bonus := .fill 4 0, penalty := .fill 4 0, final := .idle }
            control := { ends.control with timer := 0, accumulator := 0 } }
          t = reply 0x04 r (done (if s.control.phase = .setup then emptied else enterPhase .setup 0 emptied)))
      ∧ (let changed := (List.finRange 32).filter fun n =>
            decide ((s.station n).state ≠ .vacant ∧ (s.station n).state ≠ .enrolled)
          let told := fun (sequence : Byte) (payload : List Byte) =>
            ({ source := 0, destination := 0, sequence, label := 0, kind := .report, payload } : Frame)
          let entered := if s.control.phase = .setup then [] else [told 0 [0x81, 0, 0, 0, 255, 0, 0, 0, 0, 0]]
          ∀ a, s.chooseArea (.port .ml) .normal none = some a →
            (s.area a).frames.length + changed.length + entered.length + 1 ≤ (s.area a).stop - (s.area a).start →
            (∀ q, (s.claim q).hold = none) → (∀ b, (s.area b).join ≠ none → (s.area b).start < (s.area b).stop) →
            t.reportsLost = s.reportsLost
            ∧ (∀ p, (t.port p).discards = match p with
                | .ml => (s.port p).discards
                | .rl k => if s.control.phase = .setup ∨ s.chooseArea (.port (.rl k)) .urgent none ≠ none then
                    (s.port p).discards else min 65535 ((s.port p).discards + 1))
            ∧ (∃ order : List StationId, order.Perm changed ∧ (t.area a).frames = (s.area a).frames
                ++ order.map (fun n => told 0 [0x82, 0, 0, byte (n.val + 1), byte (s.station n).state.code, 1])
                ++ entered ++ [told r.sequence [0x04, r.tag, 0]])
            ∧ t.area a = { s.area a with
                frames := (t.area a).frames, peak := max (s.area a).peak (t.area a).frames.length }
            ∧ ∀ b, b ≠ a →
                ((s.area b).servesConsumer (.port .ml) = true → t.area b = s.area b)
                ∧ ((s.area b).servesConsumer (.port .ml) = false → t.area b = { s.area b with
                    frames := (t.area b).frames, peak := max (s.area b).peak (t.area b).frames.length })))

/-! ### The management unit -/

/-- A MGMT payload shorter than 2 bytes restarts the silence timer and is dropped without a report. Argument bytes fewer than
the catalogue gives are answered BAD_ARGUMENT, and a code not in the catalogue UNKNOWN_REQUEST with the code as it arrived (0x00
and 0x75 to 0xFF are such); nothing else happens but the restart of the silence timer. -/
def Obligations.ShortAndUnknownRequestsHaveNoEffect : Prop :=
  (∀ (sequence : Byte) (payload : List Byte) (s : State), payload.length < 2 →
     exec (.mgmtShort sequence payload) s = .next (mgmtArrives s)
     ∧ mgmtArrives s = { s with
         framers := { s.framers with ml := { s.framers.ml with receive := .idle } }
         control := { s.control with
           silence := if s.control.silenceLimit = 0 then none else some s.control.silenceLimit } })
  ∧ (∀ (i : Instr) (code : Nat) (r : Request) (s : State), i.request? = some (code, r) →
       r.args.length < (argumentLength code).getD 0 →
       exec i s = .next (reply code r (refuse .badArgument (mgmtArrives s))))
  ∧ ((∀ (code : Byte) (r : Request) (s : State), argumentLength code.toNat = none → r.args.length ≤ 46 →
       exec (.unknownRequest code r) s = .next (reply code.toNat r (refuse .unknownRequest (mgmtArrives s))))
     ∧ ∀ code : Byte, code.toNat = 0 ∨ 0x75 ≤ code.toNat → argumentLength code.toNat = none)

/-- Every request but FULL_RESET is answered by one reply, offered after its effect; a result other than OK and ACCEPTED comes
with no data and without any effect beyond the restart of the silence timer. -/
def Obligations.EveryRequestIsAnsweredOnce : Prop :=
  ∀ (i : Instr) (code : Nat) (r : Request) (s : State), i.request? = some (code, r) → code ≠ 0x03 → r.args.length ≤ 46 →
    ∃ o : Owned, exec i s = .next (reply code r o)
      ∧ (o.result ≠ .ok → o.result ≠ .accepted → o.data = [] ∧ o.state = mgmtArrives s)
      ∧ reply code r o = offerReport .normal
          { source := 0, destination := 0, sequence := r.sequence, label := 0, kind := .report
            payload := [byte code, r.tag, byte o.result.code] ++ o.data } o.state

/-- What a frame on its way to ML or to an RL port does. It joins the tail of the chosen area; at a full area it is dropped and
counted, and the drop is told in an AREA_DROP notice where the area's flag was clear; without an area a REPORT is lost, and
another frame is counted at its port. Losing a REPORT sets the reports-lost flag. Answers and ARENA notices to a station go to
its recorded port in lane URGENT, with the bytes of their tables, and nowhere without one. -/
def Obligations.OfferedFramesAreStoredOrDropped : Prop :=
  (∀ (lane : Lane) (f : Frame) (s : State),
     (s.chooseArea (.port .ml) lane none = none → offerReport lane f s = { s with reportsLost := true })
     ∧ (∀ a, s.chooseArea (.port .ml) lane none = some a → (s.area a).frames.length < (s.area a).stop - (s.area a).start →
         offerReport lane f s = s.setArea a { s.area a with
           frames := (s.area a).frames ++ [f], peak := max (s.area a).peak ((s.area a).frames.length + 1) })
     ∧ (∀ a, s.chooseArea (.port .ml) lane none = some a → (s.area a).stop - (s.area a).start ≤ (s.area a).frames.length →
         (offerReport lane f s).reportsLost = true
         ∧ ((s.area a).notified = true →
             offerReport lane f s = { s.setArea a { s.area a with drops := min 65535 ((s.area a).drops + 1) } with
               reportsLost := true })
         ∧ ((s.area a).notified = false → s.chooseArea (.port .ml) .normal none = some a →
             offerReport lane f s = { s.setArea a { s.area a with
                 drops := min 65535 (min 65535 ((s.area a).drops + 1) + 1), notified := true } with
               reportsLost := true })
         ∧ (∀ b, (s.area a).notified = false → s.chooseArea (.port .ml) .normal none = some b → a ≠ b →
             (s.area b).frames.length < (s.area b).stop - (s.area b).start →
             let drops := min 65535 ((s.area a).drops + 1)
             offerReport lane f s = { (s.setArea a { s.area a with drops, notified := true }).setArea b { s.area b with
                 frames := (s.area b).frames ++ [areaDropFrame a drops]
                 peak := max (s.area b).peak ((s.area b).frames.length + 1) } with
               reportsLost := true })
         ∧ (∀ b, (s.area a).notified = false → s.chooseArea (.port .ml) .normal none = some b → a ≠ b →
             (s.area b).stop - (s.area b).start ≤ (s.area b).frames.length →
             let once := min 65535 ((s.area b).drops + 1)
             offerReport lane f s = { (s.setArea a { s.area a with
                 drops := min 65535 ((s.area a).drops + 1), notified := true }).setArea b { s.area b with
                 drops := if (s.area b).notified then once else min 65535 (once + 1), notified := true } with
               reportsLost := true })))
  ∧ (∀ (k : RadioPort) (lane : Lane) (steer : Option AreaId) (f : Frame) (s : State),
       (s.chooseArea (.port (.rl k)) lane steer = none → offerRadio k lane steer f s = s.setPort (.rl k)
         { s.port (.rl k) with discards := min 65535 ((s.port (.rl k)).discards + 1) })
       ∧ (∀ a, s.chooseArea (.port (.rl k)) lane steer = some a →
           (s.area a).frames.length < (s.area a).stop - (s.area a).start →
           offerRadio k lane steer f s = s.setArea a { s.area a with
             frames := (s.area a).frames ++ [f], peak := max (s.area a).peak ((s.area a).frames.length + 1) })
       ∧ (∀ a, s.chooseArea (.port (.rl k)) lane steer = some a →
           (s.area a).stop - (s.area a).start ≤ (s.area a).frames.length →
           let drops := min 65535 ((s.area a).drops + 1)
           let dropped := s.setArea a { s.area a with drops, notified := true }
           offerRadio k lane steer f s =
             if (s.area a).notified then dropped
             else offerReport .normal { source := 0, destination := 0, sequence := 0, label := 0, kind := .report
                                        payload := [0x88, 0, 0, byte a.val, byte (drops / 256), byte drops] } dropped))
  ∧ (∀ (n : StationId) (s : State),
       (∀ a : Answer, answer n a s = match (s.station n).recordedPort with
         | none => s
         | some k => answerOn k n a s)
       ∧ (∀ (k : RadioPort) (a : Answer), answerOn k n a s = offerRadio k .urgent none
           { source := 0, destination := BitVec.ofNat 6 (n.val + 1), sequence := a.sequence, label := 0, kind := .answer
             payload := [byte a.code.code, byte a.kind.code, a.sequence, a.position] ++ bytes16 a.value ++ be16 a.extra } s)
       ∧ ∀ x : ArenaNotice, arenaTo x n s = match (s.station n).recordedPort with
         | none => s
         | some k => offerRadio k .urgent none
             { source := 0, destination := BitVec.ofNat 6 (n.val + 1), sequence := 0, label := 0, kind := .arena
               payload := [byte x.code, byte s.control.phase.code] ++ be32 s.control.timer ++ [byte (n.val + 1)] } s)

/-- The area for an offered frame: the steer area that is enabled and joined to the consumer, else the pair's area, else the
consumer's area of the first lane in the order URGENT, NORMAL, BULK. A pair's area is the one joined to that consumer and lane;
it has none exactly when no area is joined to them. -/
def Obligations.AreaIsChosenByJoinAndLane : Prop :=
  ∀ (c : Consumer) (lane : Lane) (steer : Option AreaId) (s : State),
    (∀ a, s.chooseArea c lane steer = some a → ∃ l, (s.area a).join = some { consumer := c, lane := l })
    ∧ (∀ a, steer = some a → (s.area a).start < (s.area a).stop → (s.area a).servesConsumer c = true →
        s.chooseArea c lane steer = some a)
    ∧ (∀ a b, steer = none ∨ (steer = some b ∧ ¬((s.area b).start < (s.area b).stop ∧ (s.area b).servesConsumer c = true)) →
        s.joinedArea c lane = some a → s.chooseArea c lane steer = some a)
    ∧ (∀ b, steer = none ∨ (steer = some b ∧ ¬((s.area b).start < (s.area b).stop ∧ (s.area b).servesConsumer c = true)) →
        s.joinedArea c lane = none →
        s.chooseArea c lane steer = ((s.joinedArea c .urgent).or (s.joinedArea c .normal)).or (s.joinedArea c .bulk))
    ∧ (∀ a, s.joinedArea c lane = some a → (s.area a).join = some { consumer := c, lane })
    ∧ (s.joinedArea c lane = none ↔ ∀ a, (s.area a).join ≠ some { consumer := c, lane })
    ∧ (s.QueuesFit → ∀ a, s.joinedArea c lane = some a ↔ (s.area a).join = some { consumer := c, lane })

/-- READ_STATUS answers the 45 bytes of its table, the silence timer read after its restart, and then clears the reports-lost
flag. -/
def Obligations.ReadStatusReadsAndClearsTheFlag : Prop :=
  ∀ (r : Request) (s : State), r.args.length ≤ 46 →
    let c := s.control
    let flag := fun b : Bool => if b then (1 : Byte) else 0
    let code : Running → Byte := fun | .auto => 2 | .transit => 3 | .driver => 4 | .endgame => 5
    let stations := fun x : StationState => byte ((List.finRange 32).countP fun n => decide ((s.station n).state = x))
    let nodes := fun x : NodeState => byte ((List.finRange 32).countP fun q => decide ((s.node q).state = x))
    let data : List Byte :=
      [match c.phase with | .setup => 0 | .staged => 1 | .running p => code p | .paused _ _ => 6 | .ended _ => 7,
       match c.phase with | .paused p _ | .ended p => code p | _ => 255]
      ++ be32 c.timer
      ++ [match c.phase with | .paused _ .request => 1 | .paused _ .silence => 2 | _ => 0, flag s.reportsLost]
      ++ be16 s.framers.ml.discards ++ be16 (s.framers.rl.get 0).discards ++ be16 (s.framers.rl.get 1).discards
      ++ be16 (s.framers.rl.get 2).discards ++ be16 (s.framers.rl.get 3).discards
      ++ [stations .vacant, stations .enrolled, stations .linked, stations .stale, stations .disabled, stations .ejected]
      ++ [nodes .absent, nodes .present, nodes .ready, nodes .lost]
      ++ [flag s.chain.halted]
      ++ be16 c.silenceLimit ++ be16 c.silenceLimit ++ be16 c.autoLength ++ be16 c.transitLength ++ be32 c.driverLength
      ++ be32 c.endgameLength
    data.length = 45
    ∧ exec (.readStatus r) s = .next (reply 0x01 r (done { mgmtArrives s with reportsLost := false } data))

/-- KEEPALIVE restarts the silence timer, and the reads of map, claims, credit, chain, scores and stations answer the bytes of
their tables, or BAD_ARGUMENT; none changes anything else. A set has byte k for positions 8k + 1 to 8k + 8, the lowest in bit 0;
a role is 2 for a partner, 1 for its lead and 0 else; bit t of the tags in use is set for each tag in use; and the partner count
and the disputed count are the numbers of partners and of DISPUTED records. -/
def Obligations.KeepaliveAndReadsChangeNothing : Prop :=
  (∀ (r : Request) (s : State), r.args.length ≤ 46 →
     let m := mgmtArrives s
     let k := byteAt r.args 0
     let one := 1 ≤ r.args.length
     let two := 2 ≤ r.args.length
     let map := fun o => exec (.readMap r) s = .next (reply 0x34 r o)
     let claim := fun o => exec (.readClaim r) s = .next (reply 0x38 r o)
     let credit := fun o => exec (.readCredit r) s = .next (reply 0x3D r o)
     let node := fun o => exec (.readNode r) s = .next (reply 0x54 r o)
     let score := fun o => exec (.readScore r) s = .next (reply 0x74 r o)
     let flag := fun b : Bool => if b then (1 : Byte) else 0
     let window := fun w : Window => [byte w.base, byte w.limit]
     let windows := window (s.map.homes.get 0) ++ window (s.map.homes.get 1) ++ window (s.map.homes.get 2)
       ++ window (s.map.homes.get 3) ++ window s.map.shared ++ setBytes s.map.hideSet ++ setBytes s.map.partners
       ++ [byte (s.map.partners.count id)]
     let rates := [byte s.credit.rate, byte s.credit.burst, byte (16 * s.credit.burst)]
     let scores := be16 (s.score 0) ++ be16 (s.score 1) ++ be16 (s.score 2) ++ be16 (s.score 3)
     let four := fun f : Alliance → Nat => be16 (f 0) ++ be16 (f 1) ++ be16 (f 2) ++ be16 (f 3)
     exec (.keepalive r) s = .next (reply 0x02 r (done m))
     ∧ (one → 32 < k → map (refuse .badArgument m) ∧ claim (refuse .badArgument m) ∧ credit (refuse .badArgument m)
         ∧ node (refuse .badArgument m))
     ∧ (one → k = 0 →
         map (done m windows)
         ∧ claim (done m ((List.finRange 32).map fun q => match (s.claim q).hold with
             | some h => byte (h.holder.val + 1)
             | none => 0))
         ∧ credit (done m (rates ++ (List.finRange 32).map fun n => byte (s.balance n)))
         ∧ node (done m ([match s.chain.mode with | .line => 0 | .ring => 1] ++ be16 s.chain.replyTimeout
             ++ [flag s.chain.halted,
                 match s.chain.census with | none => 0 | some c => match c.pass with | .ca => 1 | .cb => 2,
                 flag s.chain.slot.isSome, byte (tagsInUse s)]
             ++ (List.finRange 32).map fun q => byte (s.node q).state.code)))
     ∧ (∀ q : Position, one → k = q.val + 1 →
         let x := s.profile q
         let e := s.claim q
         let y := s.node q
         map (done m (windows ++ be16 x.maxHold ++ be16 x.barTime ++ [byte x.costLow, byte x.costHigh, byte (s.map.role q),
           byte (s.map.decode 0 q).code, byte (s.map.decode 1 q).code, byte (s.map.decode 2 q).code,
           byte (s.map.decode 3 q).code]))
         ∧ claim (done m ((match e.hold with
               | some h => [1, byte (h.holder.val + 1)] ++ be16 h.remaining
               | none => [0, 0, 0, 0])
             ++ (match e.bar with
               | some bar => [byte bar.alliance.val] ++ be16 bar.remaining
               | none => [255, 0, 0])
             ++ [byte (s.map.role q), byte e.waiters.length]
             ++ e.waiters.flatMap fun w => [byte (w.station.val + 1)] ++ be16 w.requested))
         ∧ credit (done m (rates ++ [byte (s.balance q)]))
         ∧ node (done m [byte y.state.code, match y.kind with | some kind => byte kind.code | none => 255,
             match y.servingEnd with | .ca => 0 | .cb => 1, byte y.misses,
             byte ((List.finRange 8).countP fun t => (s.tag t).any fun z => decide (z.position = q))]))
     ∧ (two → k = 255 → score (done m (scores ++ four s.tally.bonus.get ++ four s.tally.penalty.get
         ++ [match s.tally.final with | .idle => 0 | .running _ => 1 | .done => 2, byte s.disputedCount])))
     ∧ (∀ (g : GoalSlot) (a : Alliance), two → k = g.val → byteAt r.args 1 = a.val →
         let x := s.goal g
         let record := fun p : Period => let z := s.record g a p
           [byte z.state.code, byte z.main, byte z.check, byte z.ruled, byte z.credited]
         score (done m (scores
           ++ [match x.position with | some q => byte (q.val + 1) | none => 0, byte x.wAuto, byte x.wDriver, byte x.wEndgame,
               byte x.tolerance]
           ++ be16 x.settleTime ++ be16 ((s.tally.settle.get g).getD 0) ++ record .auto ++ record .driver
           ++ record .endgame)))
     ∧ (two → (8 ≤ k ∧ k ≠ 255) ∨ (k < 8 ∧ 4 ≤ byteAt r.args 1) → score (refuse .badArgument m)))
  ∧ (∀ (r : Request) (s : State), 1 ≤ r.args.length → r.args.length ≤ 46 →
       (byteAt r.args 0 < 1 ∨ 32 < byteAt r.args 0 →
         exec (.readStation r) s = .next (reply 0x15 r (refuse .badArgument (mgmtArrives s))))
       ∧ ∀ n : StationId, byteAt r.args 0 = n.val + 1 →
           let x := s.station n
           exec (.readStation r) s = .next (reply 0x15 r (done (mgmtArrives s)
             [byte (match x.state with
                    | .vacant => 0 | .enrolled => 1 | .linked => 2 | .stale => 3 | .disabled => 4 | .ejected => 5),
              byte (match x.kind with | none => 0 | some .robot => 1 | some .driver => 2),
              byte x.alliance.val, byte (x.team / 256), byte x.team,
              byte (match x.partner with | none => 0 | some m => m.val + 1),
              byte (match x.recordedPort with | none => 255 | some k => k.val + 1),
              byte (if x.held then 1 else 0), byte (x.quiet.getD 0 / 256), byte (x.quiet.getD 0),
              byte (s.stations.staleLimit / 256), byte s.stations.staleLimit])))
  ∧ ((∀ t : Table Bool 32,
       (setBytes t).length = 4
       ∧ ∀ (k : Fin 4) (j : Fin 8) (q : Position), q.val = 8 * k.val + j.val →
           ((setBytes t).getD k.val 0).getLsbD j.val = t.get q)
     ∧ (∀ (m : ArenaMap) (q : Position),
         (m.partners.get q = true → m.role q = 2)
         ∧ (m.partners.get q = false → (∃ p : Position, p.val = q.val + 1 ∧ m.partners.get p = true) → m.role q = 1)
         ∧ (m.partners.get q = false → (∀ p : Position, p.val = q.val + 1 → m.partners.get p = false) → m.role q = 0)
         ∧ m.partners.count id = ((List.finRange 32).filter fun p => m.partners.get p).length)
     ∧ (∀ (s : State) (t : TagId), (byte (tagsInUse s)).getLsbD t.val = (s.tag t).isSome)
     ∧ (∀ s : State, s.disputedCount =
         ((List.finRange 8).flatMap fun g => (List.finRange 4).flatMap fun a => [Period.auto, .driver, .endgame].filter fun p =>
           decide ((s.record g a p).state = .disputed)).length)
     ∧ [NodeState.absent, .present, .ready, .lost].map NodeState.code = [0, 1, 2, 3]
     ∧ [NodeKind.other, .gate, .dispenser, .goal, .lift, .light, .platform].map NodeKind.code = [0, 1, 2, 3, 4, 5, 6]
     ∧ [DecodeClass.home, .foreign, .shared, .unmapped, .hidden].map DecodeClass.code = [0, 1, 2, 3, 4]
     ∧ [TallyState.agreed, .opened, .disputed, .ruled].map TallyState.code = [0, 1, 2, 3])

/-! ### Stations -/

/-- ENROL takes its checks in order, and then writes the record; a VACANT record becomes ENROLLED with a STATION_CHANGE notice
and the re-evaluation of the robots that name it. -/
def Obligations.EnrolWritesTheRecord : Prop :=
  ∀ (r : Request) (s : State), 6 ≤ r.args.length → r.args.length ≤ 46 →
    let m := mgmtArrives s
    let kind := byteAt r.args 1
    let team := wordAt r.args 3
    let partner := byteAt r.args 5
    let answer := fun o => exec (.enrol r) s = .next (reply 0x10 r o)
    (s.control.phase ≠ .setup → answer (refuse .locked m))
    ∧ (s.control.phase = .setup →
        (byteAt r.args 0 < 1 ∨ 32 < byteAt r.args 0 ∨ kind < 1 ∨ 2 < kind ∨ 3 < byteAt r.args 2 ∨ team < 1 ∨ 9999 < team
          ∨ 32 < partner ∨ partner = byteAt r.args 0) → answer (refuse .badArgument m))
    ∧ (∀ (n : StationId) (a : Alliance), s.control.phase = .setup → byteAt r.args 0 = n.val + 1 → 1 ≤ kind → kind ≤ 2 →
        byteAt r.args 2 = a.val → 1 ≤ team → team ≤ 9999 → partner ≤ 32 → partner ≠ n.val + 1 →
        let k : StationKind := if kind = 1 then .robot else .driver
        let others := (List.finRange 32).filter fun j =>
          j ≠ n ∧ (s.station j).state ≠ .vacant ∧ (s.station j).alliance = a ∧ (s.station j).kind = some k
        let written := m.setStation n { s.station n with
          state := .enrolled, kind := some k, alliance := a, team
          partner := if h : 1 ≤ partner ∧ partner ≤ 32 then some ⟨partner - 1, by omega⟩ else none }
        ((s.station n).state ≠ .vacant → (s.station n).state ≠ .enrolled → answer (refuse .state m))
        ∧ ((s.station n).state = .vacant ∨ (s.station n).state = .enrolled → 4 ≤ others.length →
            answer (refuse .allianceFull m))
        ∧ ((s.station n).state = .enrolled → others.length < 4 → answer (done written))
        ∧ ((s.station n).state = .vacant → others.length < 4 →
            answer (done (evaluatePartners n (stationChange n .vacant .enrolled written)))))

/-- UNENROL, DISABLE, ENABLE and EJECT: their checks in order, the new record, and with it the departure from LINKED, the ARENA
notice, the STATION_CHANGE notice and the re-evaluation of the robots that name the station. The order of the notices is the one
of a station change (notes/assumptions/10.md). -/
def Obligations.RequestsThatChangeAStation : Prop :=
  ∀ (r : Request) (s : State), 1 ≤ r.args.length → r.args.length ≤ 46 →
    let m := mgmtArrives s
    let b := byteAt r.args 0
    let unenrol := fun o => exec (.unenrol r) s = .next (reply 0x11 r o)
    let disable := fun o => exec (.disable r) s = .next (reply 0x12 r o)
    let enable := fun o => exec (.enable r) s = .next (reply 0x13 r o)
    let eject := fun o => exec (.eject r) s = .next (reply 0x14 r o)
    let bad := b < 1 ∨ 32 < b
    (s.control.phase.isBetween = false → unenrol (refuse .locked m))
    ∧ (s.control.phase.isBetween = true → bad → unenrol (refuse .badArgument m))
    ∧ (bad → disable (refuse .badArgument m) ∧ enable (refuse .badArgument m))
    ∧ (s.control.phase = .setup → eject (refuse .locked m))
    ∧ (s.control.phase ≠ .setup → bad → eject (refuse .badArgument m))
    ∧ ∀ n : StationId, b = n.val + 1 →
        let x := s.station n
        (s.control.phase.isBetween = true →
          (x.state = .vacant → unenrol (refuse .state m))
          ∧ (x.state ≠ .vacant → unenrol (done (changeStation n
              { state := .vacant, kind := none, alliance := 0, team := 0, partner := none, recordedPort := none, quiet := none
                held := false } none m))))
        ∧ (x.state = .enrolled ∨ x.state = .linked ∨ x.state = .stale →
            disable (done (changeStation n { x with state := .disabled } (some .disabled) m)))
        ∧ (x.state = .vacant ∨ x.state = .disabled ∨ x.state = .ejected → disable (refuse .state m))
        ∧ (x.state = .disabled → enable (done (changeStation n { x with state := .stale } (some .enabled) m)))
        ∧ (x.state ≠ .disabled → enable (refuse .state m))
        ∧ (s.control.phase ≠ .setup →
            (x.state = .vacant ∨ x.state = .ejected → eject (refuse .state m))
            ∧ (x.state ≠ .vacant → x.state ≠ .ejected →
                eject (done (changeStation n { x with state := .ejected } (some .ejected) m))))

/-- A change of a station's state writes its record, makes its departure when it was LINKED, sends its ARENA notice, queues
STATION_CHANGE, and evaluates the robots that name it; a robot's flag that changes is told with HOLD, or with UNHOLD in DRIVER
and ENDGAME. A departure leaves the station no claim, no wait, no ELEMENT frame in a CHAIN area and no place in a tag record;
its wait goes first, and then each entry it held, the lower position first, loses its holder, keeps its bar, and is handed over
to the oldest waiter not of the barred alliance; the other commands keep their order, and balances, node records, map, match and
tally are not touched. That the departure comes before the ARENA notice, STATION_CHANGE after it and the evaluation last, in
ascending station number, is the model's choice (notes/assumptions/10.md, 11.md), and so is the order of the departure's own
effects among one another, but for the entries (10.md). -/
def Obligations.StationChangesAreToldAndDeparturesClear : Prop :=
  (∀ (n : StationId) (s : State),
     (∀ (x : Station) (arena : Option ArenaNotice),
       let written := s.setStation n x
       let left := if (s.station n).state = .linked then leaveLinked n written else written
       let told := match arena with
         | some notice => arenaTo notice n left
         | none => left
       changeStation n x arena s = evaluatePartners n (offerReport .normal
         { source := 0, destination := 0, sequence := 0, label := 0, kind := .report
           payload := [0x82, 0, 0, byte (n.val + 1), byte (s.station n).state.code, byte x.state.code] } told))
     ∧ evaluatePartners n s = (List.finRange 32).foldl (fun u k =>
         if (u.station k).partner = some n then evaluateHold u k else u) s
     ∧ let x := s.station n
       let held := s.control.phase.isDriven && x.partner.any fun k => decide ((s.station k).state ≠ .linked)
       (x.kind ≠ some .robot ∨ held = x.held → evaluateHold s n = s)
       ∧ (x.kind = some .robot → held ≠ x.held → evaluateHold s n =
           let u := s.setStation n { x with held }
           if held then arenaTo .hold n u else if s.control.phase.isDriven then arenaTo .unhold n u else u))
  ∧ (∀ (n : StationId) (s : State),
       leaveLinked n s =
         let unlisted : State := { s with claims := s.claims.map fun e =>
           { e with waiters := e.waiters.filter fun w => decide (w.station ≠ n) } }
         let given := (List.finRange 32).foldl (fun u q =>
           if (u.claim q).heldBy n then handOver q (u.setClaim q { u.claim q with hold := none }) else u) unlisted
         { given with
           areas := given.areas.map fun a =>
             if a.servesConsumer .chain then
               { a with frames := a.frames.filter fun f => ¬(f.kind = .element ∧ f.source = stationField n) }
             else a
           chain := { given.chain with
             tags := given.chain.tags.map fun t => t.map fun z => match z.origin with
               | .robot (some m) sequence => if m = n then { z with origin := .robot none sequence } else z
               | _ => z } })
  ∧ (∀ (n : StationId) (x : Station) (arena : Option ArenaNotice) (s : State),
       (s.station n).state = .linked →
       let t := changeStation n x arena s
       (∀ q, (t.claim q).heldBy n = false ∧ ∀ w ∈ (t.claim q).waiters, w.station ≠ n)
       ∧ (∀ q, (s.claim q).heldBy n = false → (t.claim q).hold = (s.claim q).hold
           ∧ (t.claim q).waiters = (s.claim q).waiters.filter fun w => w.station ≠ n)
       ∧ (∀ q, (s.claim q).heldBy n = true →
           let e := s.claim q
           let waiters := e.waiters.filter fun w => w.station ≠ n
           let most := (s.profile q).maxHold
           let eligible := fun w : Waiter => ∀ bar, e.bar = some bar → (s.station w.station).alliance ≠ bar.alliance
           ((∀ w ∈ waiters, ¬eligible w) → t.claim q = { hold := none, bar := e.bar, waiters })
           ∧ ∀ (before after : List Waiter) (w : Waiter), waiters = before ++ w :: after → eligible w →
               (∀ v ∈ before, ¬eligible v) →
               let r := w.requested
               let remaining := if r = 0 then most else if r < 100 then 100 else if r ≤ most then r else most
               t.claim q = { hold := some { holder := w.station, remaining }, bar := e.bar, waiters := before ++ after })
       ∧ (∀ q, (t.claim q).bar = (s.claim q).bar)
       ∧ (∀ a, (s.area a).servesConsumer .chain = true →
           (t.area a).frames = (s.area a).frames.filter fun f => ¬(f.kind = .element ∧ f.source = stationField n))
       ∧ (∀ k, (t.tag k).isSome = (s.tag k).isSome ∧
           ∀ r ∈ t.tag k, ∀ sequence, r.origin ≠ .robot (some n) sequence)
       ∧ t.credit = s.credit ∧ t.chain.nodes = s.chain.nodes ∧ t.map = s.map ∧ t.control = s.control ∧ t.tally = s.tally
       ∧ (t.station n).state = x.state)

/-- The quiet timer of a station runs out: it is stopped; a LINKED station becomes STALE and makes its departure, and in every
other state nothing else happens. That a timer which runs out has counted its whole remaining time first is the model's choice
(notes/assumptions/7.md). -/
def Obligations.QuietExpiryMakesALinkedStationStale : Prop :=
  ∀ (n : StationId) (s : State),
    (∀ left, (s.station n).quiet = some left →
      let u := elapse left s
      exec (.quietExpiry n) s = .next (
        if (s.station n).state = .linked then
          changeStation n { s.station n with state := .stale, quiet := none } none u
        else u.setStation n { s.station n with quiet := none }))
    ∧ ((s.station n).quiet = none → exec (.quietExpiry n) s = .next s)

/-! ### The classifier and the arena map -/

/-- WRITE_RULE, RULE_COUNT and KIND_DEFAULT are taken in SETUP, STAGED and ENDED; a bad field is refused; a written rule takes
every field of the layout with its hit count at 0. -/
def Obligations.RuleTableRequestsWriteTheTable : Prop :=
  ∀ (r : Request) (s : State), r.args.length ≤ 46 →
    let m := mgmtArrives s
    let b := byteAt r.args
    let rule := 12 ≤ r.args.length
    let count := 1 ≤ r.args.length
    let default_ := 2 ≤ r.args.length
    (s.control.phase.isIdle = false →
      (rule → exec (.writeRule r) s = .next (reply 0x20 r (refuse .locked m)))
      ∧ (count → exec (.ruleCount r) s = .next (reply 0x22 r (refuse .locked m)))
      ∧ (default_ → exec (.kindDefault r) s = .next (reply 0x23 r (refuse .locked m))))
    ∧ (s.control.phase.isIdle = true →
        (rule → 47 < b 0 ∨ 2047 < wordAt r.args 1 ∨ 2 < b 3 ∨ 15 < b 4 ∨ 63 < b 5 ∨ 63 < b 6 ∨ 31 < b 7 ∨ 5 < b 9 ∨ 11 < b 10 →
          exec (.writeRule r) s = .next (reply 0x20 r (refuse .badArgument m)))
        ∧ (∀ (i : RuleIx) (u : Rule), rule → b 0 = i.val → u.kinds.toNat = wordAt r.args 1 → u.sourceClass.code = b 3 →
            u.alliances.toNat = b 4 → u.stationValue.toNat = b 5 → u.stationMask.toNat = b 6 → u.ports.toNat = b 7 →
            u.phases.toNat = b 8 → u.verdict.code = b 9 → u.steerArea.val = b 10 → u.label.toNat = b 11 → u.hits = 0 →
            exec (.writeRule r) s = .next (reply 0x20 r (done (m.setRule i u))))
        ∧ (count → 48 < b 0 → exec (.ruleCount r) s = .next (reply 0x22 r (refuse .badArgument m)))
        ∧ (count → b 0 ≤ 48 → exec (.ruleCount r) s = .next (reply 0x22 r (done
            { m with classifier := { s.classifier with active := b 0 } })))
        ∧ (default_ → b 0 < 1 ∨ 7 < b 0 ∨ 1 < b 1 →
            exec (.kindDefault r) s = .next (reply 0x23 r (refuse .badArgument m)))
        ∧ (∀ i : Fin 7, default_ → b 0 = i.val + 1 → ∀ d : KindDefault, d.code = b 1 →
            exec (.kindDefault r) s = .next (reply 0x23 r (done
              { m with classifier := { s.classifier with defaults := s.classifier.defaults.set i d } }
              ((s.classifier.defaults.set i d).items.map fun x => byte x.code)))))

/-- READ_RULE answers the 12 bytes that a WRITE_RULE of the rule would carry, the hit count and the active count; with clear
flag 1 the hit count is then 0. -/
def Obligations.ReadRuleReadsWhatWasWritten : Prop :=
  ∀ (r : Request) (s : State), 2 ≤ r.args.length → r.args.length ≤ 46 →
    let m := mgmtArrives s
    (47 < byteAt r.args 0 ∨ 1 < byteAt r.args 1 →
      exec (.readRule r) s = .next (reply 0x21 r (refuse .badArgument m)))
    ∧ ∀ i : RuleIx, byteAt r.args 0 = i.val → byteAt r.args 1 ≤ 1 →
        ∃ bs : List Byte, bs.length = 12 ∧ ruleOf bs = some (i, { s.rule i with hits := 0 })
          ∧ exec (.readRule r) s = .next (reply 0x21 r (done
              (if byteAt r.args 1 = 1 then m.setRule i { s.rule i with hits := 0 } else m)
              (bs ++ be16 (s.rule i).hits ++ [byte s.classifier.active])))

/-- MAP_WINDOW writes a window in SETUP alone, PROFILE a profile in SETUP, STAGED and ENDED, and HIDE the hide set in every
phase; arguments outside their ranges are refused BAD_ARGUMENT. HIDE answers the new hide set. -/
def Obligations.MapRequestsWriteTheMap : Prop :=
  ∀ (r : Request) (s : State), r.args.length ≤ 46 →
    let m := mgmtArrives s
    let b := byteAt r.args
    let window := fun o => 3 ≤ r.args.length → exec (.mapWindow r) s = .next (reply 0x30 r o)
    let hide := fun o => 2 ≤ r.args.length → exec (.hide r) s = .next (reply 0x31 r o)
    let profile := fun o => 7 ≤ r.args.length → exec (.profile r) s = .next (reply 0x33 r o)
    let hold := wordAt r.args 1
    let bar := wordAt r.args 3
    (s.control.phase ≠ .setup → window (refuse .locked m))
    ∧ (s.control.phase = .setup →
        (4 < b 0 ∨ b 1 < 1 ∨ 32 < b 1 ∨ 32 < b 2 → window (refuse .badArgument m))
        ∧ (1 ≤ b 1 → b 1 ≤ 32 → b 2 ≤ 32 →
            (∀ a : Alliance, b 0 = a.val →
              window (done { m with map := { s.map with homes := s.map.homes.set a { base := b 1, limit := b 2 } } }))
            ∧ (b 0 = 4 → window (done { m with map := { s.map with shared := { base := b 1, limit := b 2 } } }))))
    ∧ (b 0 < 1 ∨ 32 < b 0 ∨ 1 < b 1 → hide (refuse .badArgument m))
    ∧ (∀ q : Position, b 0 = q.val + 1 → b 1 ≤ 1 →
        let set := s.map.hideSet.set q (b 1 == 1)
        hide (done { m with map := { s.map with hideSet := set } } (setBytes set)))
    ∧ (s.control.phase.isIdle = false → profile (refuse .locked m))
    ∧ (s.control.phase.isIdle = true →
        (b 0 < 1 ∨ 32 < b 0 ∨ hold < 100 ∨ 60000 < hold ∨ 10000 < bar ∨ b 5 < 1 ∨ 64 < b 5 ∨ b 6 < 1 ∨ 64 < b 6 →
          profile (refuse .badArgument m))
        ∧ (∀ q : Position, b 0 = q.val + 1 → 100 ≤ hold → hold ≤ 60000 → bar ≤ 10000 → 1 ≤ b 5 → b 5 ≤ 64 → 1 ≤ b 6 →
            b 6 ≤ 64 → profile (done { m with map := { s.map with
              profiles := s.map.profiles.set q { maxHold := hold, barTime := bar, costLow := b 5, costHigh := b 6 } } })))

/-- PARTNER declares a position from 2 on a partner, or removes the declaration, in SETUP alone; its checks in order. A PARTNER
with another action than its row's has the effect of its bytes (notes/assumptions/3.md): both commands are stated alike. -/
def Obligations.PartnersAreDeclaredAndRemoved : Prop :=
  ∀ (r : Request) (s : State), 2 ≤ r.args.length → r.args.length ≤ 46 →
    let m := mgmtArrives s
    let b := byteAt r.args
    let both := fun o => exec (.partner r) s = .next (reply 0x32 r o) ∧ exec (.partnerRemove r) s = .next (reply 0x32 r o)
    let data := fun set : Table Bool 32 => setBytes set ++ [byte (set.count id)]
    (s.control.phase ≠ .setup → both (refuse .locked m))
    ∧ (s.control.phase = .setup →
        (b 0 < 2 ∨ 32 < b 0 ∨ 1 < b 1 → both (refuse .badArgument m))
        ∧ ∀ q lead : Position, b 0 = q.val + 1 → q.val = lead.val + 1 →
            let declared := s.map.partners.get q = true
            let leads := ∃ next : Position, next.val = q.val + 1 ∧ s.map.partners.get next = true
            let apart := s.map.partners.get lead = false ∧ ¬leads
            (b 1 = 1 → declared → both (done m (data s.map.partners)))
            ∧ (b 1 = 1 → ¬declared → ¬(apart ∧ s.map.partners.count id < 8) → both (refuse .badArgument m))
            ∧ (b 1 = 1 → ¬declared → apart → s.map.partners.count id < 8 →
                both (done { m with map := { s.map with partners := s.map.partners.set q true } }
                  (data (s.map.partners.set q true))))
            ∧ (b 1 = 0 → ¬declared → both (refuse .state m))
            ∧ (b 1 = 0 → declared →
                both (done { m with map := { s.map with partners := s.map.partners.set q false } }
                  (data (s.map.partners.set q false)))))

/-- The decode of a position for an alliance: HIDDEN by its own or, for a partner, its lead's place in the hide set; then the
windows at the lead of a partner and at the position itself otherwise, own home before other homes before shared. -/
def Obligations.DecodeTakesItsStepsInOrder : Prop :=
  ∀ (m : ArenaMap) (a : Alliance) (q at_ : Position),
    (m.partners.get q = true ∧ 0 < q.val ∧ at_.val + 1 = q.val ∨ m.partners.get q = false ∧ at_ = q) →
    let lies := fun w : Window => w.base ≤ at_.val + 1 ∧ at_.val + 1 ≤ w.limit
    m.decode a q =
      if m.hideSet.get q = true ∨ m.hideSet.get at_ = true then .hidden
      else if lies (m.homes.get a) then .home
      else if ∃ b, lies (m.homes.get b) then .foreign
      else if lies m.shared then .shared
      else .unmapped

/-! ### Arriving frames -/

/-- What a delivery must be for the framer to accept it: its length, its CRC, version 1, a kind of the table, and station
numbers that are 0, 1 to 32 or 63; the CRC over the nine digits is 0x29B1. A delivery that fails a check, and an accepted frame
that the port gate does not let through, change nothing but the port: its receive state is IDLE and its discard count one
higher, up to 65,535. A delivery that arrives while the receive state is IDLE is judged alike: the model's choice
(notes/assumptions/1.md). -/
def Obligations.FramerAndPortGateJudgeDeliveries : Prop :=
  ((∀ bs : List Byte, (parseFrame bs).isSome = true ↔
     8 ≤ bs.length ∧ byteAt bs 4 ≤ 48 ∧ bs.length = byteAt bs 4 + 8
       ∧ bs.drop (bs.length - 2) = bytes16 (crc (bs.take (bs.length - 2)))
       ∧ byteAt bs 0 % 16 = 1 ∧ 1 ≤ byteAt bs 0 / 16 ∧ byteAt bs 0 / 16 ≤ 11
       ∧ (byteAt bs 1 ≤ 32 ∨ byteAt bs 1 = 63) ∧ (byteAt bs 2 ≤ 32 ∨ byteAt bs 2 = 63))
   ∧ crc [0x31, 0x32, 0x33, 0x34, 0x35, 0x36, 0x37, 0x38, 0x39] = 0x29B1)
  ∧ ((∀ (p : Port) (bs : List Byte) (s : State), parseFrame bs = none →
       exec (.frameDiscard p bs) s = .next (s.setPort p
         { s.port p with receive := .idle, discards := min 65535 ((s.port p).discards + 1) }))
     ∧ (∀ (p : Port) (f : Frame) (s : State), f.acceptable = true →
         (match f.kind, p with
           | .mgmt, .ml => f.source ≠ 0 ∨ f.destination ≠ 0
           | .mgmt, .rl _ | .answer, _ | .arena, _ | .report, _ => True
           | _, .ml => True
           | _, .rl _ => False) →
         exec (.portGateDrop p f) s = .next (s.setPort p
           { s.port p with receive := .idle, discards := min 65535 ((s.port p).discards + 1) })))

/-- Station acceptance. A source of 0 or 63 is dropped; a VACANT source is answered NOT_ENROLLED on a JOIN of 3 bytes and
dropped otherwise; in every other state the quiet timer is restarted, and a kind its record does not permit, or one other than
JOIN and BEACON from a station not LINKED, does nothing more. A frame it passes on has set the receive state to IDLE, restarted
the quiet timer and, from a LINKED station, made the ingress port the recorded port. -/
def Obligations.StationAcceptanceTakesItsStepsInOrder : Prop :=
  (∀ (c : Port → FrameBody → Instr) (kind : Kind),
    (c, kind) ∈ [(Instr.join, Kind.join), (Instr.beacon, .beacon), (Instr.pilot, .pilot), (Instr.telem, .telem),
      (Instr.element, .element), (Instr.claim, .claim), (Instr.release, .release)] →
    ∀ (k : RadioPort) (f : FrameBody) (s : State), f.acceptable = true →
      let u := receiveIdle (.rl k) s
      (f.source = 0 ∨ f.source = 63 → exec (c (.rl k) f) s = .next u)
      ∧ ∀ n : StationId, f.source.toNat = n.val + 1 →
          let x := s.station n
          (x.state = .vacant → exec (c (.rl k) f) s = .next (
            if kind = .join ∧ 3 ≤ f.payload.length then
              answerOn k n { code := .notEnrolled, kind := .join, sequence := f.sequence, position := 0, value := 0
                             extra := 0 } u
            else u))
          ∧ (x.state ≠ .vacant →
              (x.kind = some .robot ∧ kind = .pilot)
                ∨ (x.kind = some .driver ∧ kind ∈ [Kind.telem, .element, .claim, .release])
                ∨ (kind ≠ .join ∧ kind ≠ .beacon ∧ x.state ≠ .linked) →
              exec (c (.rl k) f) s = .next (u.setStation n { x with quiet := some s.stations.staleLimit })))
  ∧ ∀ (k : RadioPort) (n : StationId) (s : State),
      let x := s.station n
      receiveIdle (.rl k) s = s.setPort (.rl k) { s.port (.rl k) with receive := .idle }
      ∧ s.heard k n = (receiveIdle (.rl k) s).setStation n { x with
          quiet := some s.stations.staleLimit
          recordedPort := if x.state = .linked then some k else x.recordedPort }

/-- The phase gate admits a JOIN, BEACON or TELEM in every phase, a PILOT in DRIVER and ENDGAME, an ELEMENT or CLAIM in AUTO,
DRIVER and ENDGAME, and a RELEASE in the running phases and PAUSED. Of the frames that station acceptance passes but the gate
refuses, an ELEMENT, CLAIM or RELEASE is answered PHASE with its position byte, and a PILOT is dropped; the quiet timer is
restarted and the recorded port is the ingress port all the same. -/
def Obligations.PhaseGateRefusesByKindAndPhase : Prop :=
  (∀ (kind : Kind) (phase : Phase),
    (kind = .join ∨ kind = .beacon ∨ kind = .telem → phaseAdmits kind phase = true)
    ∧ (kind = .pilot →
        (phaseAdmits kind phase = true ↔ phase = .running .driver ∨ phase = .running .endgame))
    ∧ (kind = .element ∨ kind = .claim →
        (phaseAdmits kind phase = true ↔
          phase = .running .auto ∨ phase = .running .driver ∨ phase = .running .endgame))
    ∧ (kind = .release →
        (phaseAdmits kind phase = true ↔ (∃ p, phase = .running p) ∨ ∃ p cause, phase = .paused p cause)))
  ∧ ∀ (k : RadioPort) (n : StationId) (f : FrameBody) (s : State), f.acceptable = true → f.source.toNat = n.val + 1 →
      (s.station n).state = .linked →
      let u := (receiveIdle (.rl k) s).setStation n
        { s.station n with quiet := some s.stations.staleLimit, recordedPort := some k }
      let phase := fun kind => answerOn k n
        { code := .phase, kind, sequence := f.sequence, position := f.payload.headD 0, value := 0, extra := 0 } u
      ((s.station n).kind = some .driver → s.control.phase ≠ .running .driver → s.control.phase ≠ .running .endgame →
        exec (.pilot (.rl k) f) s = .next u)
      ∧ ((s.station n).kind = some .robot →
          (s.control.phase ≠ .running .auto → s.control.phase ≠ .running .driver → s.control.phase ≠ .running .endgame →
            exec (.element (.rl k) f) s = .next (phase .element) ∧ exec (.claim (.rl k) f) s = .next (phase .claim))
          ∧ (s.control.phase.isIdle = true → exec (.release (.rl k) f) s = .next (phase .release)))

/-- The first active rule that matches decides a frame, and its hit count rises by 1: DROP drops it, DENY answers an ELEMENT,
CLAIM or RELEASE (on the recorded port) and a JOIN (on the ingress port) with RULE, DISABLE disables the station; where no rule
matches, a default of DROP drops it. A COPY notice carries the rule's label, the ingress port, and the frame as it arrived, CRC
included, up to 40 bytes. -/
def Obligations.RuleVerdictsThatStopAFrame : Prop :=
  (∀ (c : Port → FrameBody → Instr) (kind : Kind),
    (c, kind) ∈ [(Instr.join, Kind.join), (Instr.beacon, .beacon), (Instr.pilot, .pilot), (Instr.telem, .telem),
      (Instr.element, .element), (Instr.claim, .claim), (Instr.release, .release)] →
    ∀ (k : RadioPort) (n : StationId) (f : FrameBody) (s : State), ComesToRules k n { f with kind } s →
      let h := s.heard k n
      let said : Answer := { code := .rule, kind, sequence := f.sequence
                             position := if kind = .join then 0 else f.payload.headD 0, value := 0, extra := 0 }
      (∀ i, s.searchRules k n { f with kind } = some i →
        let u := h.setRule i { s.rule i with hits := min 65535 ((s.rule i).hits + 1) }
        ((s.rule i).verdict = .drop → exec (c (.rl k) f) s = .next u)
        ∧ ((s.rule i).verdict = .deny → exec (c (.rl k) f) s = .next (
            if kind = .join then answerOn k n said u
            else if kind = .element ∨ kind = .claim ∨ kind = .release then answer n said u
            else u))
        ∧ ((s.rule i).verdict = .disable → exec (c (.rl k) f) s = .next (
            if (s.station n).state = .disabled ∨ (s.station n).state = .ejected then u
            else changeStation n { h.station n with state := .disabled } (some .disabled) u)))
      ∧ (s.searchRules k n { f with kind } = none → s.classifier.defaultFor kind = .drop →
          exec (c (.rl k) f) s = .next h))
  ∧ (∀ (i : RuleIx) (s : State), countHit i s = s.setRule i { s.rule i with hits := min 65535 ((s.rule i).hits + 1) })
  ∧ ∀ (label : Byte) (k : RadioPort) (f : Frame),
      let arrived := [byte (16 * f.kind.code + 1), byte f.source.toNat, byte f.destination.toNat, f.sequence,
        byte f.payload.length, f.label] ++ f.payload
      copyFrame label k f = { source := 0, destination := 0, sequence := 0, label, kind := .report
                              payload := [0x87, 0, 0, byte (k.val + 1), byte (min 40 (f.payload.length + 8))]
                                ++ (arrived ++ bytes16 (crc arrived)).take 40 }

/-- The first matching rule is the active one of lowest index that matches by kind, class, alliance, masked station number, port
and phase. -/
def Obligations.SearchFindsTheFirstMatchingRule : Prop :=
  ∀ (k : RadioPort) (n : StationId) (f : Frame) (s : State),
    let x := s.station n
    let fits := fun i : RuleIx => i.val < s.classifier.active ∧
      let u := s.rule i
      u.kinds.getLsbD (f.kind.code - 1) = true
      ∧ (u.sourceClass = .any ∨ u.sourceClass = .robot ∧ x.kind = some .robot
          ∨ u.sourceClass = .driver ∧ x.kind = some .driver)
      ∧ u.alliances.getLsbD x.alliance.val = true ∧ f.source &&& u.stationMask = u.stationValue &&& u.stationMask
      ∧ u.ports.getLsbD (k.val + 1) = true ∧ u.phases.getLsbD s.control.phase.code = true
    (∀ i, s.searchRules k n f = some i ↔ fits i ∧ ∀ j, j < i → ¬fits j)
    ∧ (s.searchRules k n f = none ↔ ∀ i, ¬fits i)

/-- A JOIN at its handler: a short one does nothing, an ENROLLED or STALE station with the recorded team and kind is linked on
the ingress port, a LINKED one takes the ingress port; the answer goes out on the ingress port. A BEACON links a STALE station
on the ingress port, gives a LINKED one the ingress port, and does nothing more in every other state. That the answer comes
before STATION_CHANGE, and the robot's own HOLD notice last, is the model's choice (notes/assumptions/10.md). -/
def Obligations.JoinAndBeaconLinkAStation : Prop :=
  (∀ (k : RadioPort) (n : StationId) (f : FrameBody) (s u : State) (steer : Option AreaId),
     ComesToHandler k n { f with kind := .join } s steer u →
     let x := s.station n
     let say := fun code (t : State) => answerOn k n
       { code, kind := .join, sequence := f.sequence, position := 0, value := 0
         extra := if code = .joinOk then s.control.phase.code else 0 } t
     let team := wordAt f.payload 0
     let fits := 1 ≤ team ∧ team ≤ 9999 ∧ team = x.team
       ∧ (byteAt f.payload 2 = 1 ∧ x.kind = some .robot ∨ byteAt f.payload 2 = 2 ∧ x.kind = some .driver)
     let linked := u.setStation n { u.station n with state := .linked, recordedPort := some k }
     (∀ old v, afterLink n old v =
       let told := evaluatePartners n (offerReport .normal
         { source := 0, destination := 0, sequence := 0, label := 0, kind := .report
           payload := [0x82, 0, 0, byte (n.val + 1), byte old.code, 2] } v)
       if (told.station n).held ∧ (told.station n).kind = some .robot then arenaTo .hold n told else told)
     ∧ exec (.join (.rl k) f) s = .next (
       if f.payload.length < 3 then u
       else match x.state with
         | .vacant => u
         | .linked => say .joinOk linked
         | .disabled => say .stationDisabled u
         | .ejected => say .stationEjected u
         | .enrolled | .stale => if fits then afterLink n x.state (say .joinOk linked) else say .teamMismatch u))
  ∧ (∀ (k : RadioPort) (n : StationId) (f : FrameBody) (s u : State) (steer : Option AreaId),
       ComesToHandler k n { f with kind := .beacon } s steer u →
       let linked := u.setStation n { u.station n with state := .linked, recordedPort := some k }
       exec (.beacon (.rl k) f) s = .next (
         match (s.station n).state with
         | .stale => afterLink n .stale linked
         | .linked => linked
         | _ => u))

/-- A PILOT or TELEM frame at the router goes to the destination's recorded port when the destination is the partner, LINKED, of
the other kind and paired back, and is dropped otherwise. That a LINKED partner without a recorded port, which no run reaches,
is sent nothing is the model's choice (notes/assumptions/23.md). -/
def Obligations.PilotAndTelemGoToThePartner : Prop :=
  ∀ (k : RadioPort) (n : StationId) (f : FrameBody) (s u : State) (steer : Option AreaId),
    (ComesToHandler k n { f with kind := .pilot } s steer u →
      exec (.pilot (.rl k) f) s = .next (
        if ∃ m : StationId, f.destination.toNat = m.val + 1 ∧ (s.station n).partner = some m
            ∧ (u.station m).state = .linked ∧ (s.station m).kind = some .robot ∧ (s.station m).partner = some n then
          match stationOf f.destination with
          | some m =>
            match (u.station m).recordedPort with
            | some port => offerRadio port .normal steer { f with kind := .pilot } u
            | none => u
          | none => u
        else u))
    ∧ (ComesToHandler k n { f with kind := .telem } s steer u →
      exec (.telem (.rl k) f) s = .next (
        if ∃ m : StationId, f.destination.toNat = m.val + 1 ∧ (s.station n).partner = some m
            ∧ (u.station m).state = .linked ∧ (s.station m).kind = some .driver ∧ (s.station m).partner = some n then
          match stationOf f.destination with
          | some m =>
            match (u.station m).recordedPort with
            | some port => offerRadio port .bulk steer { f with kind := .telem } u
            | none => u
          | none => u
        else u))

/-- An ELEMENT frame at admission: the first check that applies answers it and charges nothing; when none does, its cost is
taken from the balance and the frame joins the tail of the chosen CHAIN area, without an answer. That the drop at a full area
comes before the BUSY answer is the model's choice (notes/assumptions/29.md). -/
def Obligations.ElementIsAdmittedOrRefused : Prop :=
  ∀ (k : RadioPort) (n : StationId) (f : FrameBody) (s u : State) (steer : Option AreaId),
    ComesToHandler k n { f with kind := .element } s steer u →
    let b := f.payload.headD 0
    let say := fun code position extra (t : State) =>
      answer n { code, kind := .element, sequence := f.sequence, position, value := 0, extra } t
    let answered := exec (.element (.rl k) f) s
    (f.payload.length < 4 → answered = .next (say .malformed 0 0 u))
    ∧ (4 ≤ f.payload.length → b.toNat < 1 ∨ 32 < b.toNat → answered = .next (say .malformed b 0 u))
    ∧ ∀ q : Position, 4 ≤ f.payload.length → b.toNat = q.val + 1 →
        let class_ := s.map.decode (s.station n).alliance q
        let cost := if byteAt f.payload 1 < 128 then (s.profile q).costLow else (s.profile q).costHigh
        let holds := class_ = .shared → (s.claim (s.map.effective q)).heldBy n = true
        ((s.station n).held = true → answered = .next (say .held b 0 u))
        ∧ ((s.station n).held = false →
            (class_ = .hidden → answered = .next (say .hidden b 0 u))
            ∧ (class_ = .foreign → answered = .next (say .foreign b 0 u))
            ∧ (class_ = .unmapped → answered = .next (say .unmapped b 0 u))
            ∧ (class_ = .home ∨ class_ = .shared →
                ((s.node q).state ≠ .ready → answered = .next (say .nodeDown b 0 u))
                ∧ ((s.node q).state = .ready → ¬holds → answered = .next (say .notHolder b 0 u))
                ∧ ((s.node q).state = .ready → holds →
                    (s.balance n < cost → answered = .next (say .slow b (s.balance n) u))
                    ∧ (cost ≤ s.balance n →
                        (u.chooseArea .chain .normal steer = none → answered = .next (say .busy b 0 u))
                        ∧ ∀ a, u.chooseArea .chain .normal steer = some a →
                            ((u.area a).full = true → answered = .next (say .busy b 0 (dropAt a u)))
                            ∧ ((u.area a).full = false → answered = .next
                                ((u.setBalance n (s.balance n - cost)).setArea a { u.area a with
                                  frames := (u.area a).frames ++ [{ f with kind := .element }]
                                  peak := max (u.area a).peak ((u.area a).frames.length + 1) }))))))

/-- A CLAIM at the claim table: the first check that applies answers it and changes nothing; when none does, a FREE entry is
granted for the requested hold brought into 100 ms to the maximum of the profile, and a HELD one takes the robot into its waiter
list. That a bar which stands at 0, its expiry not taken yet, still bars is the model's reading (notes/assumptions/28.md). -/
def Obligations.ClaimIsGrantedQueuedOrRefused : Prop :=
  ∀ (k : RadioPort) (n : StationId) (f : FrameBody) (s u : State) (steer : Option AreaId),
    ComesToHandler k n { f with kind := .claim } s steer u →
    let b := f.payload.headD 0
    let say := fun code position extra (t : State) =>
      answer n { code, kind := .claim, sequence := f.sequence, position, value := 0, extra } t
    let answered := exec (.claim (.rl k) f) s
    (f.payload.length < 3 → answered = .next (say .malformed 0 0 u))
    ∧ (3 ≤ f.payload.length → b.toNat < 1 ∨ 32 < b.toNat → answered = .next (say .malformed b 0 u))
    ∧ ∀ q : Position, 3 ≤ f.payload.length → b.toNat = q.val + 1 →
        let class_ := s.map.decode (s.station n).alliance q
        let e := s.claim q
        let wanted := wordAt f.payload 1
        let most := (s.profile q).maxHold
        let hold := if wanted = 0 then most else if wanted < 100 then 100 else if wanted ≤ most then wanted else most
        let elsewhere := ∃ q' : Position, (s.claim q').waits n = true
        let entries := ((List.finRange 32).filter fun q' => (s.claim q').heldBy n).length
        ((s.station n).held = true → answered = .next (say .held b 0 u))
        ∧ ((s.station n).held = false →
            (class_ = .hidden → answered = .next (say .hidden b 0 u))
            ∧ (class_ = .foreign → answered = .next (say .foreign b 0 u))
            ∧ (class_ = .unmapped → answered = .next (say .unmapped b 0 u))
            ∧ (class_ = .home → answered = .next (say .notShared b 0 u))
            ∧ (class_ = .shared →
                (s.map.partners.get q = true → answered = .next (say .partner b 0 u))
                ∧ (s.map.partners.get q = false →
                    ((s.node q).state ≠ .ready → answered = .next (say .nodeDown b 0 u))
                    ∧ ((s.node q).state = .ready →
                        (∀ h, e.hold = some h → h.holder = n → answered = .next (say .granted b h.remaining u))
                        ∧ (e.heldBy n = false →
                            (∀ i, e.waiters[i]?.any (fun w => decide (w.station = n)) = true →
                              (∀ j < i, e.waiters[j]?.any (fun w => decide (w.station = n)) = false) →
                              answered = .next (say .queued b (i + 1) u))
                            ∧ (e.waits n = false →
                                (elsewhere → answered = .next (say .waiting b 0 u))
                                ∧ (¬elsewhere → 2 ≤ entries → answered = .next (say .holdLimit b 0 u))
                                ∧ (¬elsewhere → entries < 2 →
                                    (∀ bar, e.hold = none → e.bar = some bar → bar.alliance = (s.station n).alliance →
                                      answered = .next (say .barred b 0 u))
                                    ∧ (e.hold = none →
                                        (∀ bar, e.bar = some bar → bar.alliance ≠ (s.station n).alliance) →
                                        answered = .next (say .granted b hold
                                          (u.setClaim q { e with hold := some { holder := n, remaining := hold } })))
                                    ∧ (e.hold ≠ none → 4 ≤ e.waiters.length → answered = .next (say .listFull b 0 u))
                                    ∧ (e.hold ≠ none → e.waiters.length < 4 →
                                        answered = .next (say .queued b (e.waiters.length + 1)
                                          (u.setClaim q { e with
                                            waiters := e.waiters ++ [{ station := n, requested := wanted }] }))))))))))

/-- A RELEASE at the claim table: the holder gives the entry back, barring its alliance for the bar time of the profile, and the
entry is handed over; a waiter is taken out of the list; anyone else is answered NOT_HOLDER. -/
def Obligations.ReleaseGivesBackOrWithdraws : Prop :=
  ∀ (k : RadioPort) (n : StationId) (f : FrameBody) (s u : State) (steer : Option AreaId),
    ComesToHandler k n { f with kind := .release } s steer u →
    let b := f.payload.headD 0
    let say := fun code position (t : State) =>
      answer n { code, kind := .release, sequence := f.sequence, position, value := 0, extra := 0 } t
    let answered := exec (.release (.rl k) f) s
    (f.payload = [] → answered = .next (say .malformed 0 u))
    ∧ (f.payload ≠ [] → b.toNat < 1 ∨ 32 < b.toNat → answered = .next (say .malformed b u))
    ∧ ∀ q : Position, f.payload ≠ [] → b.toNat = q.val + 1 →
        let e := s.claim q
        let t := (s.profile q).barTime
        (s.map.partners.get q = true → answered = .next (say .notHolder b u))
        ∧ (s.map.partners.get q = false →
            (e.heldBy n = true → answered = .next (handOver q (say .released b (u.setClaim q { e with
                hold := none
                bar := if t = 0 then none else some { alliance := (s.station n).alliance, remaining := t } }))))
            ∧ (e.heldBy n = false → e.waits n = true → answered = .next (say .withdrawn b
                (u.setClaim q { e with waiters := e.waiters.filter fun w => w.station ≠ n })))
            ∧ (e.heldBy n = false → e.waits n = false → answered = .next (say .notHolder b u)))

/-! ### Hand-over, expiries, credit -/

/-- The hand-over of a FREE entry grants it to its oldest waiter that is not of the barred alliance, for the hold it asked for
brought into range, and tells it with GRANTED_LATER. A hold that runs out in a running phase frees and bars the entry, tells the
holder EXPIRED and hands the entry over; a bar that runs out is cleared, and a FREE entry is handed over; neither runs out in
another phase. That a timer which runs out has counted its whole remaining time first is the model's choice
(notes/assumptions/7.md). -/
def Obligations.HoldsAndBarsExpireAndEntriesAreHandedOver : Prop :=
  (∀ (q : Position) (s : State),
     let e := s.claim q
     let most := (s.profile q).maxHold
     let eligible := fun w : Waiter => ∀ bar, e.bar = some bar → (s.station w.station).alliance ≠ bar.alliance
     ((∀ w ∈ e.waiters, ¬eligible w) → handOver q s = s)
     ∧ ∀ (before after : List Waiter) (w : Waiter), e.waiters = before ++ w :: after → eligible w →
         (∀ v ∈ before, ¬eligible v) →
         let r := w.requested
         let hold := if r = 0 then most else if r < 100 then 100 else if r ≤ most then r else most
         handOver q s = answer w.station
           { code := .grantedLater, kind := .claim, sequence := 0, position := byte (q.val + 1), value := 0, extra := hold }
           (s.setClaim q { e with hold := some { holder := w.station, remaining := hold }, waiters := before ++ after }))
  ∧ (∀ (q : Position) (s : State),
       (∀ h, (s.claim q).hold = some h → s.control.phase.isRunning = true →
         let u := elapse h.remaining s
         let t := (s.profile q).barTime
         exec (.holdExpiry q) s = .next (handOver q (answer h.holder
           { code := .expired, kind := .claim, sequence := 0, position := byte (q.val + 1), value := 0, extra := 0 }
           (u.setClaim q { u.claim q with
             hold := none
             bar := if t = 0 then none else some { alliance := (s.station h.holder).alliance, remaining := t } }))))
       ∧ (∀ bar, (s.claim q).bar = some bar → s.control.phase.isRunning = true →
           let u := elapse bar.remaining s
           let cleared := u.setClaim q { u.claim q with bar := none }
           exec (.barExpiry q) s = .next (if (s.claim q).hold = none then handOver q cleared else cleared))
       ∧ (s.control.phase.isRunning = false ∨ (s.claim q).hold = none → exec (.holdExpiry q) s = .next s)
       ∧ (s.control.phase.isRunning = false ∨ (s.claim q).bar = none → exec (.barExpiry q) s = .next s))

/-- CREDIT_PARAMS writes rate and burst and sets every balance to the new cap; a credit tick, in a running phase, adds the rate
to every balance up to the cap and sets the accumulator to 0. That a tick has let the rest of its 10 ms pass first is the
model's choice (notes/assumptions/7.md, 25.md). -/
def Obligations.CreditIsSetAndRefilled : Prop :=
  ∀ (r : Request) (s : State), 2 ≤ r.args.length → r.args.length ≤ 46 →
    let m := mgmtArrives s
    let rate := byteAt r.args 0
    let burst := byteAt r.args 1
    let params := fun o => exec (.creditParams r) s = .next (reply 0x3C r o)
    (s.control.phase.isIdle = false → params (refuse .locked m))
    ∧ (s.control.phase.isIdle = true → rate < 1 ∨ 64 < rate ∨ burst < 1 ∨ 15 < burst → params (refuse .badArgument m))
    ∧ (s.control.phase.isIdle = true → 1 ≤ rate → rate ≤ 64 → 1 ≤ burst → burst ≤ 15 →
        params (done { m with credit := { rate, burst, balances := .fill 32 (16 * burst) } } [byte (16 * burst)]))
    ∧ (s.control.phase.isRunning = true →
        ∃ t, exec .creditTick s = .next t
          ∧ (∀ n, t.balance n = min (16 * s.credit.burst) (s.balance n + s.credit.rate))
          ∧ t.credit.rate = s.credit.rate ∧ t.credit.burst = s.credit.burst
          ∧ t = { elapse (10 - s.control.accumulator) s with
              credit := t.credit
              control := { (elapse (10 - s.control.accumulator) s).control with accumulator := 0 } })
    ∧ (s.control.phase.isRunning = false → exec .creditTick s = .next s)

/-! ### Queue areas and ports -/

/-- AREA and JOIN_AREA in SETUP and ENDED: their checks in order, then the layout (a disabled area loses its join) and the join.
-/
def Obligations.AreasAreLaidOutAndJoined : Prop :=
  ∀ (r : Request) (s : State), r.args.length ≤ 46 →
    let m := mgmtArrives s
    let start := wordAt r.args 1
    let stop := wordAt r.args 3
    let consumer := byteAt r.args 1
    let lane := byteAt r.args 2
    let area := fun o => 5 ≤ r.args.length → exec (.area r) s = .next (reply 0x40 r o)
    let join := fun o => 3 ≤ r.args.length → exec (.joinArea r) s = .next (reply 0x41 r o)
    (s.control.phase.isBetween = false → area (refuse .locked m) ∧ join (refuse .locked m))
    ∧ (s.control.phase.isBetween = true →
        (11 < byteAt r.args 0 ∨ 256 < start ∨ 256 < stop → area (refuse .badArgument m))
        ∧ (11 < byteAt r.args 0 ∨ (5 < consumer ∧ consumer ≠ 255) ∨ (consumer ≤ 5 ∧ 2 < lane) → join (refuse .badArgument m))
        ∧ ∀ a : AreaId, byteAt r.args 0 = a.val →
            let x := s.area a
            let shares := start < stop ∧ ∃ b, b ≠ a ∧ (s.area b).start < (s.area b).stop
              ∧ start < (s.area b).stop ∧ (s.area b).start < stop
            (start ≤ 256 → stop ≤ 256 →
              (x.frames ≠ [] → area (refuse .busy m))
              ∧ (x.frames = [] → shares → area (refuse .overlap m))
              ∧ (x.frames = [] → ¬shares → area (done (m.setArea a
                  { x with start, stop, join := if start < stop then x.join else none }))))
            ∧ (consumer = 255 →
                (x.frames ≠ [] → join (refuse .busy m))
                ∧ (x.frames = [] → join (done (m.setArea a { x with join := none }))))
            ∧ (∀ (c : Consumer) (l : Lane), c.code = consumer → l.code = lane →
                let pair := some { consumer := c, lane := l }
                (x.frames ≠ [] → join (refuse .busy m))
                ∧ (x.frames = [] → x.stop ≤ x.start → join (refuse .state m))
                ∧ (x.frames = [] → x.start < x.stop → (∃ b, b ≠ a ∧ (s.area b).join = pair) → join (refuse .overlap m))
                ∧ (x.frames = [] → x.start < x.stop → (∀ b, b ≠ a → (s.area b).join ≠ pair) →
                    join (done (m.setArea a { x with join := pair })))))

/-- CLEAR_AREA discards every frame of an area and answers how many; the ELEMENT frames of a CHAIN area are answered CLEARED
from the head on. READ_AREA answers 13 bytes, and with clear flag 1 the drop count, the flag and the peak start anew. That every
frame is discarded before the first of them is answered is the model's choice (notes/assumptions/22.md). -/
def Obligations.AreasAreClearedAndRead : Prop :=
  ∀ (r : Request) (s : State), r.args.length ≤ 46 →
    let m := mgmtArrives s
    let clear := fun o => 1 ≤ r.args.length → exec (.clearArea r) s = .next (reply 0x42 r o)
    let read := fun o => 2 ≤ r.args.length → exec (.readArea r) s = .next (reply 0x43 r o)
    (11 < byteAt r.args 0 → clear (refuse .badArgument m))
    ∧ (11 < byteAt r.args 0 ∨ 1 < byteAt r.args 1 → read (refuse .badArgument m))
    ∧ ∀ a : AreaId, byteAt r.args 0 = a.val →
        let x := s.area a
        let empty := m.setArea a { x with frames := [] }
        let say := fun (n : StationId) (f : Frame) => answer n
          { code := .cleared, kind := .element, sequence := f.sequence, position := f.payload.headD 0, value := 0, extra := 0 }
        ((∀ l, x.join ≠ some { consumer := .chain, lane := l }) → clear (done empty (be16 x.frames.length)))
        ∧ (∀ l, x.join = some { consumer := .chain, lane := l } →
            clear (done (x.frames.foldl (fun t f =>
                match stationOf f.source with
                | some n => if f.kind = .element then say n f t else t
                | none => t) empty) (be16 x.frames.length)))
        ∧ (byteAt r.args 1 ≤ 1 → read (done
            (if byteAt r.args 1 = 1 then m.setArea a { x with drops := 0, notified := false, peak := x.frames.length } else m)
            (be16 x.start ++ be16 x.stop
              ++ (match x.join with
                  | none => [255, 255]
                  | some j => [byte j.consumer.code, byte j.lane.code])
              ++ be16 x.frames.length ++ be16 x.peak ++ be16 x.drops ++ [if x.notified then 1 else 0])))

/-- RECEIVE_START keeps at most 64 bytes, LINE_DOWN abandons a frame in progress and leaves the transmitter, a completion ends
the transmission it names and no other, and LINK_RESET abandons both. A take happens when the transmitter is IDLE, the line is
UP and an area of the port holds a frame: the head frame of the first non-empty lane is on the line, with label 0 if it is a
PILOT or TELEM frame and with the CRC of what is sent. That RECEIVE_START carries the bytes kept so far, that a completion names
its transmission by a number, and that label 0 is written at the take is the model's choice (notes/assumptions/2.md, 4.md,
17.md). -/
def Obligations.PortsReceiveTakeAndSend : Prop :=
  (∀ (p : Port) (s : State),
     let x := s.port p
     (∀ bytes, x.receive = .idle → exec (.receiveStart p bytes) s = .next (s.setPort p
       { x with receive := .receiving (bytes.take 64) }))
     ∧ (∀ bytes kept, x.receive = .receiving kept → exec (.receiveStart p bytes) s = .next s)
     ∧ exec (.lineUp p) s = .next (s.setPort p { x with line := .up })
     ∧ exec (.lineDown p) s = .next (s.setPort p { x with line := .down, receive := .idle })
     ∧ (∀ sent : Transmission, x.transmitter = some sent →
         exec (.transmitComplete p sent.number) s = .next (s.setPort p { x with transmitter := none })
         ∧ ∀ other, other ≠ sent.number → exec (.transmitComplete p other) s = .next s)
     ∧ (x.transmitter = none → ∀ number, exec (.transmitComplete p number) s = .next s)
     ∧ (∀ r : Request, 1 ≤ r.args.length → r.args.length ≤ 46 → byteAt r.args 0 = p.code →
         let m := mgmtArrives s
         exec (.linkReset r) s = .next (reply 0x05 r (done (m.setPort p
           { m.port p with receive := .idle, transmitter := none }))))
     ∧ (∀ r : Request, 1 ≤ r.args.length → r.args.length ≤ 46 → 6 < byteAt r.args 0 →
         exec (.linkReset r) s = .next (reply 0x05 r (refuse .badArgument (mgmtArrives s)))))
  ∧ (∀ (p : Port) (s : State),
       let x := s.port p
       let filled := fun (l : Lane) (a : AreaId) => s.joinedArea (.port p) l = some a ∧ (s.area a).frames ≠ []
       (∀ (l : Lane) (a : AreaId) (f : Frame) (rest : List Frame), x.transmitter = none → x.line = .up → filled l a →
         (∀ l' b, l'.code < l.code → ¬filled l' b) → (s.area a).frames = f :: rest →
         let sent := if f.kind = .pilot ∨ f.kind = .telem then { f with label := 0 } else f
         exec (.transmitterTake p) s = .next ((s.setArea a { s.area a with frames := rest }).setPort p
           { x with transmitter := some { number := x.taken, wire := sent.content ++ bytes16 (crc sent.content) }
                    taken := x.taken + 1 }))
       ∧ (x.transmitter ≠ none ∨ x.line = .down ∨ (∀ l a, ¬filled l a) → exec (.transmitterTake p) s = .next s))

/-! ### The field chain -/

/-- CHAIN_CONFIG and CENSUS: their checks in order; a change of mode makes every record ABSENT, and a census starts with every
record ABSENT and PROBE 1 on CA. -/
def Obligations.ChainIsConfiguredAndSurveyed : Prop :=
  ∀ (r : Request) (s : State), r.args.length ≤ 46 →
    let m := mgmtArrives s
    let timeout := wordAt r.args 1
    let config := fun o => 3 ≤ r.args.length → exec (.chainConfig r) s = .next (reply 0x50 r o)
    let census := fun o => exec (.census r) s = .next (reply 0x51 r o)
    let absent : Table Node 32 := .fill 32 { state := .absent, kind := none, servingEnd := .ca, misses := 0 }
    (s.control.phase ≠ .setup → config (refuse .locked m))
    ∧ (s.control.phase = .setup → 1 < byteAt r.args 0 ∨ timeout < 2 ∨ 250 < timeout → config (refuse .badArgument m))
    ∧ (∀ mode : ChainMode, s.control.phase = .setup → mode.code = byteAt r.args 0 → 2 ≤ timeout → timeout ≤ 250 →
        (s.chain.census ≠ none → config (refuse .busy m))
        ∧ (s.chain.census = none → config (done { m with chain := { s.chain with
            mode, nodes := if mode = s.chain.mode then s.chain.nodes else absent, replyTimeout := timeout } })))
    ∧ (s.control.phase.isBetween = false → census (refuse .locked m))
    ∧ (s.control.phase.isBetween = true → s.chain.census ≠ none → census (refuse .busy m))
    ∧ (s.control.phase.isBetween = true → s.chain.census = none → census (accepted
        (sendOn .ca { type := .probe, position := 1, tag := 0, code := 0, value := 0 } { m with
          chain := { s.chain with
            nodes := absent
            census := some { requestTag := r.tag, pass := .ca, position := 0, timer := s.chain.replyTimeout } } })))

/-- A probe is answered by a PROBE_REPLY from its position on its end, which makes the record PRESENT, or its timer runs out;
the next position of the pass is then probed, in RING mode the positions still ABSENT are probed on CB after the CA pass, and
then the census ends with WAKE, RESUME and CENSUS_DONE. With no census a PROBE_REPLY is heard and no more, and no probe times
out. That a timer which runs out has counted its whole remaining time first is the model's choice (notes/assumptions/7.md). -/
def Obligations.CensusProbesThenWakes : Prop :=
  (∀ (c : Census) (s : State), s.chain.census = some c →
     let left := fun (pass : ChainEnd) (t : State) (k q : Position) =>
       k < q ∧ (pass = .ca ∨ (t.node q).state = .absent)
     let probe := fun (pass : ChainEnd) (q : Position) (t : State) =>
       sendOn pass { type := .probe, position := q.val + 1, tag := 0, code := 0, value := 0 }
         (t.setCensus (some { c with pass, position := q, timer := t.chain.replyTimeout }))
     let follows := fun (t u : State) =>
       (∀ q, left c.pass t c.position q → (∀ j, j < q → ¬left c.pass t c.position j) → u = probe c.pass q t)
       ∧ ((∀ q, ¬left c.pass t c.position q) →
           (c.pass = .ca → t.chain.mode = .ring → ∀ q, (t.node q).state = .absent →
             (∀ j, j < q → (t.node j).state ≠ .absent) → u = probe .cb q t)
           ∧ (c.pass = .cb ∨ t.chain.mode = .line ∨ (∀ q, (t.node q).state ≠ .absent) → u = finishCensus c.requestTag t))
     let signal := fun (type : ChainType) (t : State) =>
       let x : ChainMessage := { type, position := 0, tag := 0, code := 0, value := 0 }
       if t.chain.mode = .ring then sendOn .cb x (sendOn .ca x t) else sendOn .ca x t
     (∃ u, exec .probeTimeout s = .next u ∧ follows (elapse c.timer s) u)
     ∧ (∀ t, follows t (continueCensus c t))
     ∧ (∀ (tag : Byte) (t : State),
         let ready := t.chain.nodes.map fun x => if x.state = .present then { x with state := .ready, misses := 0 } else x
         let woken := signal .wake t
         let resumed := signal .resume { woken with chain := { woken.chain with nodes := ready } }
         finishCensus tag t = offerReport .normal
           { source := 0, destination := 0, sequence := 0, label := 0, kind := .report
             payload := [0x78, tag, 0, byte (ready.count fun x => decide (x.state = .ready))] }
           { resumed with chain := { resumed.chain with census := none } })
     ∧ (∀ (position nodeKind : Byte) (kind : NodeKind), position.toNat = c.position.val + 1 → kind.code = nodeKind.toNat →
         let t := (hear c.position s).setNode c.position
           { (hear c.position s).node c.position with state := .present, kind := some kind, servingEnd := c.pass }
         ∃ u, exec (.probeReply c.pass position nodeKind) s = .next u ∧ follows t u)
     ∧ (∀ (e : ChainEnd) (position nodeKind : Byte) (q : Position), position.toNat = q.val + 1 → nodeKind.toNat ≤ 6 →
         q ≠ c.position ∨ e ≠ c.pass → exec (.probeReply e position nodeKind) s = .next (hear q s)))
  ∧ ∀ s : State, s.chain.census = none →
      exec .probeTimeout s = .next s
      ∧ ∀ (e : ChainEnd) (position nodeKind : Byte) (q : Position), position.toNat = q.val + 1 → nodeKind.toNat ≤ 6 →
          exec (.probeReply e position nodeKind) s = .next (hear q s)

/-- ELEMENT_DIRECT sends its command under the lowest free tag, else puts it in the pending slot, else answers BUSY; the pending
command is sent when a tag is free and no census runs, and not otherwise. That an ELEMENT_DIRECT taken while a tag is free and
the pending command has not been sent yet takes that tag is the model's choice (notes/assumptions/30.md). -/
def Obligations.DirectCommandsTakeATagOrWait : Prop :=
  ∀ (r : Request) (s : State), 4 ≤ r.args.length → r.args.length ≤ 46 →
    let m := mgmtArrives s
    let direct := fun o => exec (.elementDirect r) s = .next (reply 0x52 r o)
    let sent := fun (t : TagId) (q : Position) (tag function : Byte) (value : BitVec 16) (u : State) =>
      sendOn (u.node q).servingEnd { type := .command, position := q.val + 1, tag := t.val, code := function, value }
        (u.setTag t (some { origin := .direct tag, position := q, sentOn := (u.node q).servingEnd
                            timer := u.chain.replyTimeout }))
    let lowest := fun t : TagId => s.tag t = none ∧ ∀ j, j < t → s.tag j ≠ none
    let function := r.args.getD 1 0
    let value := word16 (r.args.getD 2 0) (r.args.getD 3 0)
    (byteAt r.args 0 < 1 ∨ 32 < byteAt r.args 0 → direct (refuse .badArgument m))
    ∧ (∀ q : Position, byteAt r.args 0 = q.val + 1 →
        (s.chain.census ≠ none → direct (refuse .busy m))
        ∧ (s.chain.census = none →
            (∀ t, lowest t → direct (accepted (sent t q r.tag function value m)))
            ∧ ((∀ t, s.tag t ≠ none) →
                (s.chain.slot = none → direct (accepted (m.setSlot
                  (some { requestTag := r.tag, position := q, function, value }))))
                ∧ (s.chain.slot ≠ none → direct (refuse .busy m)))))
    ∧ (∀ (d : DirectCommand) (t : TagId), s.chain.slot = some d → s.chain.census = none → lowest t →
        exec .pendingSend s = .next (sent t d.position d.requestTag d.function d.value (s.setSlot none)))
    ∧ (s.chain.slot = none ∨ s.chain.census ≠ none ∨ (∀ t, s.tag t ≠ none) → exec .pendingSend s = .next s)

/-- A dequeue takes the head command of the first non-empty CHAIN lane when a tag is free, the chain is not halted, no census
runs and the pending slot is empty; the recheck answers it, or it is sent under the lowest free tag. -/
def Obligations.DequeueRechecksAndSends : Prop :=
  ∀ s : State,
    let filled := fun (l : Lane) (a : AreaId) => s.joinedArea .chain l = some a ∧ (s.area a).frames ≠ []
    let ready := s.chain.halted = false ∧ s.chain.census = none ∧ s.chain.slot = none
    (∀ (t : TagId) (l : Lane) (a : AreaId) (f : Frame) (rest : List Frame) (n : StationId) (q : Position),
      ready → (s.tag t = none ∧ ∀ j, j < t → s.tag j ≠ none) → filled l a →
      (∀ l' b, l'.code < l.code → ¬filled l' b) → (s.area a).frames = f :: rest →
      f.source.toNat = n.val + 1 → (f.payload.headD 0).toNat = q.val + 1 →
      let u := s.setArea a { s.area a with frames := rest }
      let say := fun code => answer n { code, kind := .element, sequence := f.sequence
                                        position := f.payload.headD 0, value := 0, extra := 0 } u
      let sentOn := (s.node q).servingEnd
      exec .dequeue s = .next (
        if s.control.phase ≠ .running .auto ∧ s.control.phase ≠ .running .driver ∧ s.control.phase ≠ .running .endgame then
          say .phase
        else if s.map.hidden q then say .hidden
        else if (s.node q).state ≠ .ready then say .nodeDown
        else if s.map.decode (s.station n).alliance q = .shared ∧ (s.claim (s.map.effective q)).heldBy n = false then
          say .notHolder
        else
          sendOn sentOn { type := .command, position := q.val + 1, tag := t.val, code := f.payload.getD 1 0
                          value := word16 (f.payload.getD 2 0) (f.payload.getD 3 0) }
            (u.setTag t (some { origin := .robot (some n) f.sequence, position := q, sentOn
                                timer := s.chain.replyTimeout }))))
    ∧ (¬ready ∨ (∀ t, s.tag t ≠ none) ∨ (∀ l a, ¬filled l a) → exec .dequeue s = .next s)

/-- A REPLY from a node that is not ABSENT is heard and ends the transaction whose tag and position it carries, whose outcome
goes to the robot the record still holds or in a DIRECT_DONE report; a timeout ends it with TIMEOUT and charges the node a miss;
a REPLY from an ABSENT position changes nothing, and one that matches no transaction is heard and no more. That a timeout's
answer comes before the miss and its notices, and that the timer has counted its remaining time first, is the model's choice
(notes/assumptions/13.md, 7.md). -/
def Obligations.RepliesAndTimeoutsEndTransactions : Prop :=
  (∀ (t : TagId) (x : TagRecord) (s : State), s.tag t = some x →
     let ended := fun (code : AnswerCode) (value : BitVec 16) (u : State) =>
       match x.origin with
       | .robot (some n) sequence => answer n
           { code, kind := .element, sequence, position := byte (x.position.val + 1), value, extra := 0 } (u.setTag t none)
       | .robot none _ => u.setTag t none
       | .direct tag => offerReport .normal
           { source := 0, destination := 0, sequence := 0, label := 0, kind := .report
             payload := [0x79, tag, 0, byte code.code, byte (x.position.val + 1)] ++ bytes16 value } (u.setTag t none)
     (∀ (e : ChainEnd) (position tag status : Byte) (value : BitVec 16),
       position.toNat = x.position.val + 1 → tag.toNat = t.val →
       (status = 0 → (s.node x.position).state ≠ .absent →
         exec (.reply e position tag status value) s = .next (ended .done value (hear x.position s)))
       ∧ (status = 1 → (s.node x.position).state ≠ .absent →
         exec (.reply e position tag status value) s = .next (ended .nodeFault 0 (hear x.position s)))
       ∧ (status = 2 → (s.node x.position).state ≠ .absent →
         exec (.reply e position tag status value) s = .next (ended .badFunction 0 (hear x.position s)))
       ∧ ((s.node x.position).state = .absent → exec (.reply e position tag status value) s = .next s))
     ∧ (∀ (e : ChainEnd) (position tag status : Byte) (value : BitVec 16) (q : Position),
         position.toNat = q.val + 1 → q ≠ x.position → tag.toNat = t.val → status.toNat ≤ 2 →
         (s.node q).state ≠ .absent → exec (.reply e position tag status value) s = .next (hear q s))
     ∧ exec (.replyTimeout t) s = .next (chargeMiss x.position (ended .timeout 0 (elapse x.timer s))))
  ∧ (∀ (e : ChainEnd) (position tag status : Byte) (value : BitVec 16) (q : Position) (s : State),
      position.toNat = q.val + 1 → status.toNat ≤ 2 → (∀ t : TagId, tag.toNat = t.val → s.tag t = none) →
      exec (.reply e position tag status value) s = .next (if (s.node q).state = .absent then s else hear q s))
  ∧ ∀ (t : TagId) (s : State), s.tag t = none → exec (.replyTimeout t) s = .next s

/-- A node that is heard has no misses, and a LOST one is READY again with a NODE_CHANGE notice. A node whose transaction times
out has one miss more, up to 3; a READY one is lost at the third, and in RING mode, when it is served from CA, so are switched
to CB the nodes beyond it that are served from CA and not ABSENT, each told in a NODE_CHANGE notice of its own, the lower
position first. -/
def Obligations.NodesAreHeardAndLost : Prop :=
  ∀ (q : Position) (s : State),
    let x := s.node q
    let up := min 3 (x.misses + 1)
    (∀ old new e, nodeChange q old new e s = offerReport .normal
      { source := 0, destination := 0, sequence := 0, label := 0, kind := .report
        payload := [0x83, 0, 0, byte (q.val + 1), byte old.code, byte new.code, byte e.code] } s)
    ∧ (x.state = .absent → hear q s = s ∧ chargeMiss q s = s)
    ∧ (x.state = .present ∨ x.state = .ready → hear q s = s.setNode q { x with misses := 0 })
    ∧ (x.state = .lost → hear q s =
        nodeChange q .lost .ready x.servingEnd (s.setNode q { x with state := .ready, misses := 0 }))
    ∧ (x.state = .present ∨ x.state = .lost ∨ (x.state = .ready ∧ up < 3) →
        chargeMiss q s = s.setNode q { x with misses := up })
    ∧ (x.state = .ready → up = 3 →
        let t := chargeMiss q s
        (t.node q) = { x with state := .lost, misses := 3 }
        ∧ (s.chain.mode = .line ∨ x.servingEnd = .cb → t =
            nodeChange q .ready .lost x.servingEnd (s.setNode q { x with state := .lost, misses := 3 }))
        ∧ (s.chain.mode = .ring → x.servingEnd = .ca → ∀ k, k ≠ q →
            t.node k = if q < k ∧ (s.node k).state ≠ .absent then { s.node k with servingEnd := .cb } else s.node k)
        ∧ (s.chain.mode = .ring → x.servingEnd = .ca → t = (List.finRange 32).foldl
            (fun u k =>
              let y := s.node k
              if q < k ∧ y.state ≠ .absent ∧ y.servingEnd = .ca then
                nodeChange k y.state y.state .cb (u.setNode k { y with servingEnd := .cb })
              else u)
            (nodeChange q .ready .lost .ca (s.setNode q { x with state := .lost, misses := 3 }))))

/-- A SENSE from a node that is not ABSENT is heard and then counted, when a configured goal stands at its position, the
position is not hidden and the phase gives a period: the sensor's count rises by the delta up to 255, the record is OPEN unless
RULED, and the goal's settle timer is restarted. -/
def Obligations.SenseCountsAtItsGoal : Prop :=
  ∀ (e : ChainEnd) (position code : Byte) (q : Position) (s : State), position.toNat = q.val + 1 → code.toNat % 16 ≠ 0 →
    ((s.node q).state = .absent → exec (.sense e position code) s = .next s)
    ∧ ((s.node q).state ≠ .absent →
        let t := hear q s
        let goal := fun g : GoalSlot => (s.goal g).position = some q
        let current : Running → Period := fun | .auto | .transit => .auto | .driver => .driver | .endgame => .endgame
        let period : Option Period := match s.control.phase with
          | .setup | .staged => none
          | .running r | .paused r _ => some (current r)
          | .ended r => match s.tally.final with
            | .running _ => some (current r)
            | .idle | .done => none
        ((∀ g, ¬goal g) ∨ s.map.hidden q = true ∨ period = none → exec (.sense e position code) s = .next t)
        ∧ (∀ (g : GoalSlot) (a : Alliance) (p : Period), goal g → (∀ j, j < g → ¬goal j) → s.map.hidden q = false →
            period = some p → a.val = code.toNat / 16 % 4 →
            let x := s.record g a p
            let state := if x.state = .ruled then TallyState.ruled else .opened
            exec (.sense e position code) s = .next ((t.setRecord g a p
              (if code.toNat < 128 then { x with main := min 255 (x.main + code.toNat % 16), state }
                else { x with check := min 255 (x.check + code.toNat % 16), state })).setSettle g
              (some (s.goal g).settleTime))))

/-- RESET_NODE in SETUP, ENDED and PAUSED sends RESET_NODE, aborts the transactions to the node in order of tag, wakes it to
READY with no misses, keeps the field halted if it was, and tells a change of state. LINK_RESET of a chain end takes the COMMAND
and PROBE messages from its outgoing side, aborts the transactions sent on it, abandons its probe as at a timeout, and sends
HALT again on a halted chain. That HALT is sent again on CB in RING mode alone, and that a LINK_RESET of CB in LINE mode treats
what RING mode left there by the same steps, is the model's choice (notes/assumptions/20.md, 31.md). -/
def Obligations.NodesAndEndsAreReset : Prop :=
  ∀ (r : Request) (s : State), 1 ≤ r.args.length → r.args.length ≤ 46 →
    let m := mgmtArrives s
    let reset := fun o => exec (.resetNode r) s = .next (reply 0x53 r o)
    let taken := s.control.phase.isBetween = true ∨ s.control.phase.isPaused = true
    let plain := fun type : ChainType => ({ type, position := 0, tag := 0, code := 0, value := 0 } : ChainMessage)
    let signal := fun (type : ChainType) (t : State) =>
      if t.chain.mode = .ring then sendOn .cb (plain type) (sendOn .ca (plain type) t) else sendOn .ca (plain type) t
    let ended := fun (t : TagId) (y : TagRecord) (u : State) =>
      match y.origin with
      | .robot (some n) sequence => answer n { code := .aborted, kind := .element, sequence
                                               position := byte (y.position.val + 1), value := 0, extra := 0 } (u.setTag t none)
      | .robot none _ => u.setTag t none
      | .direct tag => offerReport .normal
          { source := 0, destination := 0, sequence := 0, label := 0, kind := .report
            payload := [0x79, tag, 0, 0x25, byte (y.position.val + 1), 0, 0] } (u.setTag t none)
    let aborted := fun (hit : TagRecord → Bool) (u : State) => (List.finRange 8).foldl (fun u t =>
      match s.tag t with
      | some y => if hit y then ended t y u else u
      | none => u) u
    (¬taken → reset (refuse .locked m))
    ∧ (taken → byteAt r.args 0 < 1 ∨ 32 < byteAt r.args 0 → reset (refuse .badArgument m))
    ∧ (∀ q : Position, taken → byteAt r.args 0 = q.val + 1 →
        let x := s.node q
        (s.chain.census ≠ none → reset (refuse .busy m))
        ∧ (s.chain.census = none → x.state = .absent → reset (refuse .state m))
        ∧ (s.chain.census = none → x.state ≠ .absent →
            let sent := sendOn x.servingEnd { plain .resetNode with position := q.val + 1 } m
            let free := aborted (fun y => decide (y.position = q)) sent
            let woken := (signal .wake free).setNode q { x with state := .ready, misses := 0 }
            let still := if s.chain.halted then signal .halt woken else woken
            reset (done (if x.state = .ready then still else nodeChange q x.state .ready x.servingEnd still))))
    ∧ (∀ e : ChainEnd, byteAt r.args 0 = 5 + e.code →
        let kept := ((s.side e).onLine.toList ++ (s.side e).waiting).filter fun x => x.type ≠ .command ∧ x.type ≠ .probe
        let cut := m.setSide e { onLine := kept.head?, waiting := kept.tail }
        let free := aborted (fun y => decide (y.sentOn = e)) cut
        let still := fun u => if s.chain.halted ∧ (e = .ca ∨ s.chain.mode = .ring) then sendOn e (plain .halt) u else u
        let link := fun t => exec (.linkReset r) s = .next (reply 0x05 r (done t))
        ((∀ c, s.chain.census = some c → c.pass ≠ e) → link (still free))
        ∧ (∀ c, s.chain.census = some c → c.pass = e → link (still (continueCensus c free))))

/-- On a chain end the first message that waits goes on the line when the one before it has gone whole; a message that fails a
check of its arrival changes nothing. That a message sent on an idle end is on the line at once, and that CHAIN_SEND_NEXT with
none waiting leaves the line idle, is the model's choice (notes/assumptions/19.md). -/
def Obligations.ChainEndsSendInOrderAndDiscard : Prop :=
  (∀ (e : ChainEnd) (s : State),
    (∀ x xs, (s.side e).waiting = x :: xs →
      exec (.chainSendNext e) s = .next (s.setSide e { onLine := some x, waiting := xs }))
    ∧ ((s.side e).waiting = [] → exec (.chainSendNext e) s = .next (s.setSide e { onLine := none, waiting := [] })))
  ∧ (∀ (e : ChainEnd) (bytes : List Byte) (s : State),
      bytes.length ≠ 8 ∨ (bytes.foldl (· + ·) 0) ≠ 0 ∨ byteAt bytes 1 = 0 ∨ 32 < byteAt bytes 1
        ∨ ¬(byteAt bytes 0 = 2 ∧ byteAt bytes 3 ≤ 2 ∨ byteAt bytes 0 = 3 ∧ byteAt bytes 3 % 16 ≠ 0
            ∨ byteAt bytes 0 = 5 ∧ byteAt bytes 3 ≤ 6) →
      exec (.chainMessageDiscard e bytes) s = .next s)
  ∧ (∀ (e : ChainEnd) (m : ChainMessage) (s : State),
      let x := s.side e
      sendOn e m s = s.setSide e (if x.onLine = none ∧ x.waiting = [] then { onLine := some m, waiting := [] }
        else { x with waiting := x.waiting ++ [m] }))

/-! ### The match -/

/-- STAGE takes its checks in order, and STAGE, UNSTAGE, START, PAUSE, RESUME and ABORT change the phase in the phases they are
taken in and are refused LOCKED in the others. -/
def Obligations.PhaseRequestsMoveThePhase : Prop :=
  ∀ (r : Request) (s : State), r.args.length ≤ 46 →
    let m := mgmtArrives s
    let phase := s.control.phase
    let stage := fun o => exec (.stage r) s = .next (reply 0x61 r o)
    let unstage := fun o => exec (.unstage r) s = .next (reply 0x62 r o)
    let start := fun o => exec (.start r) s = .next (reply 0x63 r o)
    let pause := fun o => exec (.pause r) s = .next (reply 0x64 r o)
    let resume := fun o => exec (.resume r) s = .next (reply 0x65 r o)
    let abort := fun o => exec (.abort r) s = .next (reply 0x66 r o)
    let paired := ∀ n k, (s.station n).state ≠ .vacant → (s.station n).partner = some k →
      (s.station k).state ≠ .vacant ∧ (s.station k).kind ≠ (s.station n).kind
        ∧ (s.station k).alliance = (s.station n).alliance ∧ (s.station k).partner = some n
    let mapped := ∀ q lead : Position, q.val = lead.val + 1 → s.map.partners.get q = true →
      ∀ a, s.map.windowClass a q = s.map.windowClass a lead
    let placed := ∀ g q, (s.goal g).position = some q → (s.node q).kind = some .goal
    (phase ≠ .setup → stage (refuse .locked m))
    ∧ (phase = .setup →
        (s.chain.census ≠ none → stage (refuse .busy m))
        ∧ (s.chain.census = none → ¬paired → stage (refuse .pairing m))
        ∧ (s.chain.census = none → paired → ¬mapped → stage (refuse .mapMismatch m))
        ∧ (s.chain.census = none → paired → mapped → ¬placed → stage (refuse .notGoal m))
        ∧ (s.chain.census = none → paired → mapped → placed → stage (done (enterPhase .staged 0 m))))
    ∧ (phase = .staged → unstage (done (enterPhase .setup 0 m)))
    ∧ (phase ≠ .staged → unstage (refuse .locked m))
    ∧ (phase = .staged → start (done (passThrough (enterPhase (.running .auto) s.control.autoLength
        { m with control := { m.control with accumulator := 0 } }))))
    ∧ (phase ≠ .staged → start (refuse .locked m))
    ∧ (∀ p, phase = .running p → pause (done (enterPhase (.paused p .request) s.control.timer m)))
    ∧ ((∀ p, phase ≠ .running p) → pause (refuse .locked m))
    ∧ (∀ p c, phase = .paused p c → resume (done (passThrough (enterPhase (.running p) s.control.timer m))))
    ∧ ((∀ p c, phase ≠ .paused p c) → resume (refuse .locked m))
    ∧ (∀ p, phase = .running p ∨ (∃ c, phase = .paused p c) → abort (done (enterPhase (.ended p) 0 m)))
    ∧ ((∀ p, phase ≠ .running p) → (∀ p c, phase ≠ .paused p c) → abort (refuse .locked m))

/-- Entering a phase: the phase, its timer and the accumulator are written, the four ARENA copies and the PHASE_CHANGE notice go
out, and then the entry effects of every block follow, and nothing else: the hold evaluations (DRIVER and ENDGAME) or the
clearing of the held flags, the claims cleared (ENDED), the balances filled (AUTO from STAGED), the PILOT frames taken out, HALT
or RESUME with the halted flag, and the final settle started (ENDED). The order of the announcements and of the blocks' effects
is the model's choice (notes/assumptions/12.md), and so is that the robots are evaluated, and told HOLD, in ascending station
number (notes/assumptions/11.md). -/
def Obligations.EnteringAPhaseTellsItAndTakesEffect : Prop :=
  ∀ (new : Phase) (timer : Nat) (s : State),
    let old := s.control.phase
    let t := enterPhase new timer s
    let accumulator := if new.isBetween then 0 else s.control.accumulator
    let entered : State := { s with control := { s.control with phase := new, timer, accumulator } }
    let arena : Frame := { source := 0, destination := 63, sequence := 0, label := 0, kind := .arena
                           payload := [1, byte new.code] ++ be32 timer ++ [0] }
    let report : Frame := { source := 0, destination := 0, sequence := 0, label := 0, kind := .report
                            payload := [0x81, 0, 0, byte new.code,
                                match new with | .paused p _ => byte p.code | _ => 255] ++ be32 timer
                              ++ [match new with | .paused _ .request => 1 | .paused _ .silence => 2 | _ => 0] }
    let copy := fun k => offerRadio k .urgent none arena
    let told := offerReport .normal report (copy 3 (copy 2 (copy 1 (copy 0 entered))))
    let purged := old.isDriven = true ∧ (new.isPaused = true ∨ new.isEnded = true)
    let held := fun x : Station =>
      if new.isDriven then
        if x.kind = some .robot then x.partner.any fun k => decide ((s.station k).state ≠ .linked) else x.held
      else false
    let signal : Option ChainType := if new.isPaused then some .halt else if old.isPaused then some .resume else none
    t.control = entered.control
    ∧ (¬purged → ∀ a, (told.area a).frames <+: (t.area a).frames)
    ∧ (purged → ∀ a, ((told.area a).frames.filter fun f => decide (f.kind ≠ .pilot)) <+: (t.area a).frames
        ∧ ∀ f ∈ (t.area a).frames, f.kind ≠ .pilot)
    ∧ (∀ n, t.station n = { s.station n with held := held (s.station n) })
    ∧ (new.isEnded = true → ∀ q, t.claim q = { hold := none, bar := none, waiters := [] })
    ∧ (new.isEnded = false → t.claims = s.claims ∧ t.tally = s.tally)
    ∧ (new.isEnded = true → t.tally.goals = s.tally.goals ∧ t.tally.bonus = s.tally.bonus
        ∧ t.tally.penalty = s.tally.penalty ∧ t.tally.final ≠ .idle)
    ∧ (old = .staged ∧ new = .running .auto →
        t.credit.rate = s.credit.rate ∧ t.credit.burst = s.credit.burst ∧ ∀ n, t.balance n = 16 * s.credit.burst)
    ∧ (¬(old = .staged ∧ new = .running .auto) → t.credit = s.credit)
    ∧ t.chain = { s.chain with
        halted := if new.isPaused then true else if old.isPaused then false else s.chain.halted
        sideA := t.chain.sideA
        sideB := t.chain.sideB }
    ∧ (∀ e, (t.side e).onLine.toList ++ (t.side e).waiting = (s.side e).onLine.toList ++ (s.side e).waiting
        ++ match signal with
           | some type => if e = .ca ∨ s.chain.mode = .ring then [{ type, position := 0, tag := 0, code := 0, value := 0 }] else []
           | none => [])
    ∧ t.map = s.map ∧ t.classifier = s.classifier ∧ t.stations.staleLimit = s.stations.staleLimit
    ∧ (∀ p, t.port p = { s.port p with discards := (t.port p).discards })
    ∧ (∀ a, (t.area a).start = (s.area a).start ∧ (t.area a).stop = (s.area a).stop ∧ (t.area a).join = (s.area a).join)
    ∧ (s.reportsLost = true → t.reportsLost = true) ∧ t.pending = s.pending
    ∧ (let evaluated : State :=
          if new.isDriven then (List.finRange 32).foldl evaluateHold told
          else { told with stations := { told.stations with
            records := told.stations.records.map fun x => { x with held := false } } }
        let cleared : State :=
          if new.isEnded then { evaluated with claims := .fill 32 { hold := none, bar := none, waiters := [] } } else evaluated
        let filled : State :=
          if old = .staged ∧ new = .running .auto then
            { cleared with credit := { cleared.credit with balances := .fill 32 (16 * cleared.credit.burst) } }
          else cleared
        let emptied : State :=
          if old.isDriven && (new.isPaused || new.isEnded) then
            { filled with areas := filled.areas.map fun x =>
                { x with frames := x.frames.filter fun f => decide (f.kind ≠ .pilot) } }
          else filled
        let signalled : State := match signal with
          | none => emptied
          | some type =>
            let x : ChainMessage := { type, position := 0, tag := 0, code := 0, value := 0 }
            let u : State := { emptied with chain := { emptied.chain with halted := new.isPaused } }
            if u.chain.mode = .ring then sendOn .cb x (sendOn .ca x u) else sendOn .ca x u
        t = if new.isEnded then startFinalSettle signalled else signalled)

/-- The phase timer of a running phase runs out: the successor is entered with its own timer, and a running phase whose timer is
0 is passed through at once. The silence timer runs out: it is stopped, and a running match is PAUSED with the phase timer
frozen. That a timer which runs out has counted its whole remaining time first is the model's choice (notes/assumptions/7.md),
and so is the order of the entry's effects (notes/assumptions/12.md). -/
def Obligations.PhaseAndSilenceExpire : Prop :=
  ∀ s : State,
    let c := s.control
    let next : Running → Phase × Nat := fun
      | .auto => (.running .transit, c.transitLength)
      | .transit => (.running .driver, c.driverLength - c.endgameLength)
      | .driver => (.running .endgame, c.endgameLength)
      | .endgame => (.ended .endgame, 0)
    ((c.phase.isRunning = false ∨ c.timer ≠ 0) → passThrough s = s)
    ∧ (∀ p, c.phase = .running p → c.timer = 0 → passThrough s = passThrough (enterPhase (next p).1 (next p).2 s))
    ∧ (∀ p, c.phase = .running p → exec .phaseExpiry s = .next
        (passThrough (enterPhase (next p).1 (next p).2 (elapse c.timer s))))
    ∧ (c.phase.isRunning = false → exec .phaseExpiry s = .next s)
    ∧ (c.silence = none → exec .silenceExpiry s = .next s)
    ∧ (∀ left, c.silence = some left →
        let u := elapse left s
        let stopped : State := { u with control := { u.control with silence := none } }
        (∀ p, c.phase = .running p →
          exec .silenceExpiry s = .next (enterPhase (.paused p .silence) (c.timer - left) stopped))
        ∧ (c.phase.isRunning = false → exec .silenceExpiry s = .next stopped))

/-- STALE_LIMIT, SILENCE_LIMIT and PHASE_TIMES write their limits and lengths in their ranges and refuse the rest; a silence
limit of 0 stops the silence timer and another restarts it; the running quiet timers are left. -/
def Obligations.LimitsAndLengthsAreWrittenInTheirRanges : Prop :=
  ∀ (r : Request) (s : State), r.args.length ≤ 46 →
    let m := mgmtArrives s
    let word := wordAt r.args
    let long := longAt r.args
    let times := fun o => exec (.phaseTimes r) s = .next (reply 0x60 r o)
    let fits := word 0 ≤ 60000 ∧ word 2 ≤ 15000 ∧ 1000 ≤ long 4 ∧ long 4 ≤ 300000 ∧ long 8 ≤ long 4
    (2 ≤ r.args.length →
      exec (.staleLimit r) s = .next (reply 0x16 r (
        if word 0 < 200 ∨ 5000 < word 0 then refuse .badArgument m
        else done { m with stations := { s.stations with staleLimit := word 0 } }))
      ∧ exec (.silenceLimit r) s = .next (reply 0x67 r (
          if (1 ≤ word 0 ∧ word 0 < 100) ∨ 5000 < word 0 then refuse .badArgument m
          else done { m with control := { s.control with
            silenceLimit := word 0, silence := if word 0 = 0 then none else some (word 0) } })))
    ∧ (12 ≤ r.args.length →
        (s.control.phase.isBetween = false → times (refuse .locked m))
        ∧ (s.control.phase.isBetween = true → ¬fits → times (refuse .badArgument m))
        ∧ (s.control.phase.isBetween = true → fits → times (done { m with control := { m.control with
            autoLength := word 0, transitLength := word 2, driverLength := long 4, endgameLength := long 8 } })))

/-! ### The score tally -/

/-- GOAL_CONFIG in SETUP: its checks in order; position 0 makes the slot unconfigured, and another writes all of it. -/
def Obligations.GoalsAreConfiguredInSetup : Prop :=
  ∀ (r : Request) (s : State), 8 ≤ r.args.length → r.args.length ≤ 46 →
    let m := mgmtArrives s
    let b := byteAt r.args
    let settle := wordAt r.args 6
    let config := fun o => exec (.goalConfig r) s = .next (reply 0x70 r o)
    let written := fun (g : GoalSlot) (x : Goal) => done { m with tally := { s.tally with goals := s.tally.goals.set g x } }
    let fits := b 2 ≤ 50 ∧ b 3 ≤ 50 ∧ b 4 ≤ 50 ∧ b 5 ≤ 3 ∧ 100 ≤ settle ∧ settle ≤ 2000
    (s.control.phase ≠ .setup → config (refuse .locked m))
    ∧ (s.control.phase = .setup → 7 < b 0 ∨ 32 < b 1 → config (refuse .badArgument m))
    ∧ ∀ g : GoalSlot, s.control.phase = .setup → b 0 = g.val →
        (b 1 = 0 → config (written g
          { position := none, wAuto := 0, wDriver := 0, wEndgame := 0, tolerance := 0, settleTime := 100 }))
        ∧ ∀ q : Position, b 1 = q.val + 1 →
            let other := ∃ k, k ≠ g ∧ (s.goal k).position = some q
            (¬fits → config (refuse .badArgument m))
            ∧ (fits → other → config (refuse .overlap m))
            ∧ (fits → ¬other → config (written g
                { position := some q, wAuto := b 2, wDriver := b 3, wEndgame := b 4, tolerance := b 5, settleTime := settle }))

/-- RULING fixes a record's count, PENALTY and AWARD add points to a total up to 65,535; each takes its checks in order and
tells the new score in a SCORE notice ahead of the reply. -/
def Obligations.RulingsAndPointsAreTakenAndTold : Prop :=
  ∀ (r : Request) (s : State), r.args.length ≤ 46 →
    let m := mgmtArrives s
    let b := byteAt r.args
    let points := wordAt r.args 1
    let before := s.control.phase = .setup ∨ s.control.phase = .staged
    let ruling := fun o => 4 ≤ r.args.length → exec (.ruling r) s = .next (reply 0x71 r o)
    let penalty := fun o => 3 ≤ r.args.length → exec (.penalty r) s = .next (reply 0x72 r o)
    let award := fun o => 3 ≤ r.args.length → exec (.award r) s = .next (reply 0x73 r o)
    let told := fun (a : Alliance) (t : State) => done (offerReport .normal
      { source := 0, destination := 0, sequence := 0, label := 0, kind := .report
        payload := [0x86, 0, 0, byte a.val] ++ be16 (t.score a) } t)
    (before → ruling (refuse .locked m) ∧ penalty (refuse .locked m) ∧ award (refuse .locked m))
    ∧ (¬before → 7 < b 0 ∨ 3 < b 1 ∨ (b 2 ≠ 2 ∧ b 2 ≠ 4 ∧ b 2 ≠ 5) → ruling (refuse .badArgument m))
    ∧ (∀ (g : GoalSlot) (a : Alliance) (p : Period), ¬before → b 0 = g.val → b 1 = a.val → b 2 = p.code →
        ((s.goal g).position = none → ruling (refuse .state m))
        ∧ ((s.goal g).position ≠ none → ruling (told a
            (m.setRecord g a p { s.record g a p with state := .ruled, ruled := b 3 }))))
    ∧ (¬before → 3 < b 0 ∨ points < 1 ∨ 1000 < points → penalty (refuse .badArgument m) ∧ award (refuse .badArgument m))
    ∧ (∀ a : Alliance, ¬before → b 0 = a.val → 1 ≤ points → points ≤ 1000 →
        penalty (told a { m with tally := { s.tally with
          penalty := s.tally.penalty.set a (min 65535 (s.tally.penalty.get a + points)) } })
        ∧ award (told a { m with tally := { s.tally with
            bonus := s.tally.bonus.set a (min 65535 (s.tally.bonus.get a + points)) } }))

/-- The credited count of a record by its state, and the score of an alliance: the sum of weight times credited count over the
configured goals and the periods, plus the bonus, less the penalty, brought into 0 to 65,535. -/
def Obligations.ScoreIsTheAdjustedSumOfCreditedCounts : Prop :=
  (∀ x : TallyRecord,
    (x.state = .agreed → x.credited = x.main)
    ∧ (x.state = .opened ∨ x.state = .disputed → x.credited = min x.main x.check)
    ∧ (x.state = .ruled → x.credited = x.ruled)
    ∧ (x.state = .opened →
        ({ x with state := .agreed } : TallyRecord).credited = x.credited + (x.main - min x.main x.check)))
  ∧ ∀ (a : Alliance) (s : State),
      let goal := fun g : GoalSlot =>
        if (s.goal g).position = none then 0
        else (s.goal g).wAuto * (s.record g a .auto).credited + (s.goal g).wDriver * (s.record g a .driver).credited
          + (s.goal g).wEndgame * (s.record g a .endgame).credited
      let sum := goal 0 + goal 1 + goal 2 + goal 3 + goal 4 + goal 5 + goal 6 + goal 7
      let adjusted : Int := sum + s.tally.bonus.get a - s.tally.penalty.get a
      (s.score a : Int) = if adjusted < 0 then 0 else if 65535 < adjusted then 65535 else adjusted

/-- A goal's settle timer runs out: it is stopped, and every OPEN record of the goal agrees within the tolerance or is disputed
and told in a DISPUTE notice, in order of alliance and period. The final settle starts on ENDED at the longest settle time of a
configured goal and ends at once when none is configured; its end stops every settle timer, compares the configured goals in
order, is DONE and tells FINAL. That a timer which runs out has counted its whole remaining time first is the model's choice
(notes/assumptions/7.md). -/
def Obligations.SettlesCompareOpenRecords : Prop :=
  let apart := fun (s : State) (g : GoalSlot) (i : Alliance × Period) =>
    let x := s.record g i.1 i.2
    (s.goal g).tolerance < x.main - x.check ∨ (s.goal g).tolerance < x.check - x.main
  let compared := fun (s : State) (g : GoalSlot) (i : Alliance × Period) =>
    let x := s.record g i.1 i.2
    if x.state = .opened then { x with state := if apart s g i then TallyState.disputed else .agreed } else x
  let order := [(0 : Alliance), 1, 2, 3].flatMap fun a => [(a, Period.auto), (a, .driver), (a, .endgame)]
  let tell := fun (s : State) (u : State) (g : GoalSlot) => order.foldl (fun u i =>
    let x := s.record g i.1 i.2
    if x.state = .opened ∧ apart s g i then
      offerReport .normal { source := 0, destination := 0, sequence := 0, label := 0, kind := .report
                            payload := [0x84, 0, 0, byte g.val, byte i.1.val, byte i.2.code, byte x.main, byte x.check] } u
    else u) u
  (∀ (g : GoalSlot) (left : Nat) (s : State), s.tally.settle.get g = some left →
    let u := elapse left s
    ∃ T : Tally, exec (.settleExpiry g) s = .next (tell s { u with tally := T } g)
      ∧ T = { u.tally with settle := u.tally.settle.set g none, records := T.records }
      ∧ (∀ k, k ≠ g → T.records.get k = s.tally.records.get k)
      ∧ ∀ i ∈ order, ((T.records.get g).get i.1).get i.2 = compared s g i)
  ∧ (∀ (g : GoalSlot) (s : State), s.tally.settle.get g = none → exec (.settleExpiry g) s = .next s)
  ∧ (∀ (left : Nat) (s : State), s.tally.final = .running left →
      exec .finalSettleExpiry s = .next (endFinalSettle (elapse left s)))
  ∧ (∀ s : State,
      let configured := (List.finRange 8).filter fun g => decide ((s.goal g).position ≠ none)
      ∃ T : Tally,
        let t : State := { s with tally := T }
        let disputed := ((List.finRange 8).map fun g => order.countP fun i =>
          decide ((t.record g i.1 i.2).state = .disputed)).sum
        endFinalSettle s = offerReport .normal
          { source := 0, destination := 0, sequence := 0, label := 0, kind := .report
            payload := [0x85, 0, 0] ++ (be16 (t.score 0) ++ be16 (t.score 1) ++ be16 (t.score 2) ++ be16 (t.score 3)
              ++ [byte disputed]) }
          (configured.foldl (tell s) t)
        ∧ T = { s.tally with settle := T.settle, records := T.records, final := .done }
        ∧ (∀ g, T.settle.get g = none)
        ∧ ∀ g, ∀ i ∈ order, t.record g i.1 i.2 = if (s.goal g).position ≠ none then compared s g i else s.record g i.1 i.2)
  ∧ (∀ s : State, (∀ left, s.tally.final ≠ .running left) → exec .finalSettleExpiry s = .next s)
  ∧ ∀ s : State,
      ((∀ g, (s.goal g).position = none ∨ (s.goal g).settleTime = 0) →
        startFinalSettle s = endFinalSettle { s with tally := { s.tally with final := .running 0 } })
      ∧ ∀ g, (s.goal g).position ≠ none → 0 < (s.goal g).settleTime →
          (∀ k, (s.goal k).position ≠ none → (s.goal k).settleTime ≤ (s.goal g).settleTime) →
          startFinalSettle s = { s with tally := { s.tally with final := .running (s.goal g).settleTime } }

/-! ### What every step keeps -/

/-- The chain's halted flag is set exactly while the phase is PAUSED, whatever step is taken. -/
def Obligations.EveryStepKeepsTheHaltedFlag : Prop :=
  ∀ s t : State, s.haltFits → step s = .next t → t.haltFits

/-- A robot is held exactly when its driver is missing in DRIVER or ENDGAME, and no PILOT frame is stored in another phase,
whatever step is taken. -/
def Obligations.EveryStepKeepsHeldRobotsAndPilotFrames : Prop :=
  (∀ s t : State, s.heldFits → step s = .next t → t.heldFits)
  ∧ ∀ s t : State, s.pilotFits → step s = .next t → t.pilotFits

/-- No area holds more frames than its capacity, no two enabled areas share a slot, a disabled area has no join, and no
(consumer, lane) pair is joined twice, whatever step is taken. -/
def Obligations.EveryStepKeepsTheQueueAreas : Prop :=
  ∀ s t : State, s.QueuesFit → step s = .next t → t.QueuesFit

/-- Every count and total stays in its range, whatever step is taken from a state whose areas and claims fit: the discard, drop,
hit, miss, active rule, peak and partner counts, the accumulator, the balances, the tally's counts, bonuses and penalties, the
waiters of an entry and the entries a robot holds. Every tally count by itself stays in 0 to 255, and every alliance score lies
in 0 to 65,535. -/
def Obligations.EveryStepKeepsEveryCountInRange : Prop :=
  (∀ s t : State, s.QueuesFit → s.ClaimsFit → s.CountsFit → step s = .next t → t.CountsFit)
  ∧ (∀ s t : State, s.tallyFits → step s = .next t → t.tallyFits)
  ∧ State.reset.tallyFits ∧ ∀ (s : State) (a : Alliance), s.score a ≤ 65535

/-- The claim table stays as its rules keep it, whatever step is taken: at most 4 waiters to an entry, holders and waiters
LINKED robots, no robot waiting twice or where it holds, at most 2 entries held by one and at most 1 while it waits, only robots
of the barred alliance waiting on a FREE entry, and every entry FREE and empty at a partner and in SETUP, STAGED and ENDED. -/
def Obligations.EveryStepKeepsTheClaimTable : Prop :=
  ∀ s t : State, s.ClaimsFit → step s = .next t → t.ClaimsFit

/-- The machine after reset has every property that the steps keep. -/
def Obligations.ResetHasWhatEveryStepKeeps : Prop :=
  State.reset.haltFits ∧ State.reset.heldFits ∧ State.reset.pilotFits ∧ State.reset.QueuesFit ∧ State.reset.ClaimsFit
    ∧ State.reset.CountsFit

/-! ### What the bytes spell -/

/-- Every frame the framer may accept is read back from the bytes it is sent as, every well-formed arrival command and chain
message command is the one its bytes spell, and a delivery has the effect of the command it spells. That the commands carry the
whole delivery, and that a discard command has the effect its bytes have, is the model's choice (notes/assumptions/1.md, 3.md).
-/
def Obligations.BytesSpellTheirCommands : Prop :=
  (∀ f : Frame, f.acceptable = true → parseFrame f.wire = some f)
  ∧ (∀ (i : Instr) (p : Port) (bs : List Byte), i.wellFormed = true → i.delivery? = some (p, bs) →
      deliveryCommand p bs = i)
  ∧ (∀ (i : Instr) (e : ChainEnd) (bs : List Byte), i.wellFormed = true → i.message? = some (e, bs) → chainCommand e bs = i)
  ∧ (∀ (p : Port) (bs : List Byte) (s : State), exec (.frameDiscard p bs) s = exec (deliveryCommand p bs) s)
  ∧ ∀ (e : ChainEnd) (bs : List Byte) (s : State), exec (.chainMessageDiscard e bs) s = exec (chainCommand e bs) s
end

