-- ==== Sys2Proof/Laws/Table.lean ====
section
/-! SUPPORT. What reading a table answers after each operation on it. -/

namespace Sys2Proof.Table
variable {α β : Type} {n : Nat}

theorem eq_of_items {t u : Table α n} (h : t.items = u.items) : t = u := by
  cases t; cases u; simp only at h; subst h; rfl

theorem get_eq (t : Table α n) (i : Fin n) : t.get i = t.items[i.val]'(by rw [t.size]; exact i.isLt) := rfl

theorem eq_of_get {t u : Table α n} (h : ∀ i, t.get i = u.get i) : t = u := by
  apply eq_of_items
  apply List.ext_getElem
  · rw [t.size, u.size]
  · intro i h1 h2
    exact h ⟨i, by rw [← t.size]; exact h1⟩

@[simp] theorem get_set_self (t : Table α n) (i : Fin n) (a : α) : (t.set i a).get i = a := by
  simp [get, set]

theorem get_set_ne (t : Table α n) {i j : Fin n} (h : j ≠ i) (a : α) : (t.set i a).get j = t.get j := by
  have : i.val ≠ j.val := fun e => h (Fin.ext e.symm)
  simp [get, set, this]

theorem get_set (t : Table α n) (i j : Fin n) (a : α) : (t.set i a).get j = if j = i then a else t.get j := by
  split
  · next h => subst h; exact get_set_self t j a
  · next h => exact get_set_ne t h a

@[simp] theorem set_get (t : Table α n) (i : Fin n) : t.set i (t.get i) = t := by
  apply eq_of_get
  intro j
  rw [get_set]
  split
  · next h => rw [h]
  · rfl

@[simp] theorem set_set (t : Table α n) (i : Fin n) (a b : α) : (t.set i a).set i b = t.set i b := by
  apply eq_of_get
  intro j
  simp only [get_set]
  split <;> rfl

@[simp] theorem get_fill (a : α) (i : Fin n) : (fill n a).get i = a := by simp [get, fill]

@[simp] theorem get_ofFn (f : Fin n → α) (i : Fin n) : (ofFn f).get i = f i := by simp [get, ofFn]

@[simp] theorem get_map (f : α → β) (t : Table α n) (i : Fin n) : (t.map f).get i = f (t.get i) := by simp [get, map]

@[simp] theorem get_modify_self (t : Table α n) (i : Fin n) (f : α → α) : (t.modify i f).get i = f (t.get i) := by
  simp [modify]

@[simp] theorem length_items (t : Table α n) : t.items.length = n := t.size

/-- The records of a table, read one after another. -/
theorem items_eq_map_get (t : Table α n) : t.items = (List.finRange n).map t.get := by
  apply List.ext_getElem
  · simp
  · intro i h1 h2; simp [get]

theorem mem_items {t : Table α n} {a : α} : a ∈ t.items ↔ ∃ i, t.get i = a := by
  rw [List.mem_iff_getElem]
  constructor
  · rintro ⟨i, h, rfl⟩
    exact ⟨⟨i, by rw [← t.size]; exact h⟩, rfl⟩
  · rintro ⟨i, rfl⟩
    exact ⟨i.val, by rw [t.size]; exact i.isLt, rfl⟩

theorem find?_some {t : Table α n} {p : α → Bool} {i : Fin n} (h : t.find? p = some i) : p (t.get i) = true := by
  simpa using List.find?_some h

theorem find?_none {t : Table α n} {p : α → Bool} (h : t.find? p = none) (i : Fin n) : p (t.get i) = false := by
  have := List.find?_eq_none.mp h i (List.mem_finRange i)
  simpa using this

end Sys2Proof.Table
end

