-- ==== Sys2Proof/Laws/State.lean ====
section
/-! SUPPORT. What each field of the state is after each update of one record: one lemma for each field and update, so
that no later proof unfolds a record update. -/

namespace Sys2Proof.Machine

variable (s : State)

/-! ### setPort -/

@[simp] theorem State.setPort_stations (p : Port) (x : PortState) : (s.setPort p x).stations = s.stations := by cases p <;> rfl
@[simp] theorem State.setPort_classifier (p : Port) (x : PortState) : (s.setPort p x).classifier = s.classifier := by cases p <;> rfl
@[simp] theorem State.setPort_map (p : Port) (x : PortState) : (s.setPort p x).map = s.map := by cases p <;> rfl
@[simp] theorem State.setPort_claims (p : Port) (x : PortState) : (s.setPort p x).claims = s.claims := by cases p <;> rfl
@[simp] theorem State.setPort_credit (p : Port) (x : PortState) : (s.setPort p x).credit = s.credit := by cases p <;> rfl
@[simp] theorem State.setPort_areas (p : Port) (x : PortState) : (s.setPort p x).areas = s.areas := by cases p <;> rfl
@[simp] theorem State.setPort_chain (p : Port) (x : PortState) : (s.setPort p x).chain = s.chain := by cases p <;> rfl
@[simp] theorem State.setPort_control (p : Port) (x : PortState) : (s.setPort p x).control = s.control := by cases p <;> rfl
@[simp] theorem State.setPort_tally (p : Port) (x : PortState) : (s.setPort p x).tally = s.tally := by cases p <;> rfl
@[simp] theorem State.setPort_reportsLost (p : Port) (x : PortState) : (s.setPort p x).reportsLost = s.reportsLost := by cases p <;> rfl
@[simp] theorem State.setPort_pending (p : Port) (x : PortState) : (s.setPort p x).pending = s.pending := by cases p <;> rfl

/-! ### setStation -/

@[simp] theorem State.setStation_framers (n : StationId) (x : Station) : (s.setStation n x).framers = s.framers := rfl
@[simp] theorem State.setStation_classifier (n : StationId) (x : Station) : (s.setStation n x).classifier = s.classifier := rfl
@[simp] theorem State.setStation_map (n : StationId) (x : Station) : (s.setStation n x).map = s.map := rfl
@[simp] theorem State.setStation_claims (n : StationId) (x : Station) : (s.setStation n x).claims = s.claims := rfl
@[simp] theorem State.setStation_credit (n : StationId) (x : Station) : (s.setStation n x).credit = s.credit := rfl
@[simp] theorem State.setStation_areas (n : StationId) (x : Station) : (s.setStation n x).areas = s.areas := rfl
@[simp] theorem State.setStation_chain (n : StationId) (x : Station) : (s.setStation n x).chain = s.chain := rfl
@[simp] theorem State.setStation_control (n : StationId) (x : Station) : (s.setStation n x).control = s.control := rfl
@[simp] theorem State.setStation_tally (n : StationId) (x : Station) : (s.setStation n x).tally = s.tally := rfl
@[simp] theorem State.setStation_reportsLost (n : StationId) (x : Station) : (s.setStation n x).reportsLost = s.reportsLost := rfl
@[simp] theorem State.setStation_pending (n : StationId) (x : Station) : (s.setStation n x).pending = s.pending := rfl

/-! ### setRule -/

@[simp] theorem State.setRule_framers (i : RuleIx) (x : Rule) : (s.setRule i x).framers = s.framers := rfl
@[simp] theorem State.setRule_stations (i : RuleIx) (x : Rule) : (s.setRule i x).stations = s.stations := rfl
@[simp] theorem State.setRule_map (i : RuleIx) (x : Rule) : (s.setRule i x).map = s.map := rfl
@[simp] theorem State.setRule_claims (i : RuleIx) (x : Rule) : (s.setRule i x).claims = s.claims := rfl
@[simp] theorem State.setRule_credit (i : RuleIx) (x : Rule) : (s.setRule i x).credit = s.credit := rfl
@[simp] theorem State.setRule_areas (i : RuleIx) (x : Rule) : (s.setRule i x).areas = s.areas := rfl
@[simp] theorem State.setRule_chain (i : RuleIx) (x : Rule) : (s.setRule i x).chain = s.chain := rfl
@[simp] theorem State.setRule_control (i : RuleIx) (x : Rule) : (s.setRule i x).control = s.control := rfl
@[simp] theorem State.setRule_tally (i : RuleIx) (x : Rule) : (s.setRule i x).tally = s.tally := rfl
@[simp] theorem State.setRule_reportsLost (i : RuleIx) (x : Rule) : (s.setRule i x).reportsLost = s.reportsLost := rfl
@[simp] theorem State.setRule_pending (i : RuleIx) (x : Rule) : (s.setRule i x).pending = s.pending := rfl

/-! ### setMap -/

@[simp] theorem State.setMap_framers (m : ArenaMap) : (s.setMap m).framers = s.framers := rfl
@[simp] theorem State.setMap_stations (m : ArenaMap) : (s.setMap m).stations = s.stations := rfl
@[simp] theorem State.setMap_classifier (m : ArenaMap) : (s.setMap m).classifier = s.classifier := rfl
@[simp] theorem State.setMap_claims (m : ArenaMap) : (s.setMap m).claims = s.claims := rfl
@[simp] theorem State.setMap_credit (m : ArenaMap) : (s.setMap m).credit = s.credit := rfl
@[simp] theorem State.setMap_areas (m : ArenaMap) : (s.setMap m).areas = s.areas := rfl
@[simp] theorem State.setMap_chain (m : ArenaMap) : (s.setMap m).chain = s.chain := rfl
@[simp] theorem State.setMap_control (m : ArenaMap) : (s.setMap m).control = s.control := rfl
@[simp] theorem State.setMap_tally (m : ArenaMap) : (s.setMap m).tally = s.tally := rfl
@[simp] theorem State.setMap_reportsLost (m : ArenaMap) : (s.setMap m).reportsLost = s.reportsLost := rfl
@[simp] theorem State.setMap_pending (m : ArenaMap) : (s.setMap m).pending = s.pending := rfl

/-! ### setClaim -/

@[simp] theorem State.setClaim_framers (q : Position) (x : ClaimEntry) : (s.setClaim q x).framers = s.framers := rfl
@[simp] theorem State.setClaim_stations (q : Position) (x : ClaimEntry) : (s.setClaim q x).stations = s.stations := rfl
@[simp] theorem State.setClaim_classifier (q : Position) (x : ClaimEntry) : (s.setClaim q x).classifier = s.classifier := rfl
@[simp] theorem State.setClaim_map (q : Position) (x : ClaimEntry) : (s.setClaim q x).map = s.map := rfl
@[simp] theorem State.setClaim_credit (q : Position) (x : ClaimEntry) : (s.setClaim q x).credit = s.credit := rfl
@[simp] theorem State.setClaim_areas (q : Position) (x : ClaimEntry) : (s.setClaim q x).areas = s.areas := rfl
@[simp] theorem State.setClaim_chain (q : Position) (x : ClaimEntry) : (s.setClaim q x).chain = s.chain := rfl
@[simp] theorem State.setClaim_control (q : Position) (x : ClaimEntry) : (s.setClaim q x).control = s.control := rfl
@[simp] theorem State.setClaim_tally (q : Position) (x : ClaimEntry) : (s.setClaim q x).tally = s.tally := rfl
@[simp] theorem State.setClaim_reportsLost (q : Position) (x : ClaimEntry) : (s.setClaim q x).reportsLost = s.reportsLost := rfl
@[simp] theorem State.setClaim_pending (q : Position) (x : ClaimEntry) : (s.setClaim q x).pending = s.pending := rfl

/-! ### setBalance -/

@[simp] theorem State.setBalance_framers (n : StationId) (v : Nat) : (s.setBalance n v).framers = s.framers := rfl
@[simp] theorem State.setBalance_stations (n : StationId) (v : Nat) : (s.setBalance n v).stations = s.stations := rfl
@[simp] theorem State.setBalance_classifier (n : StationId) (v : Nat) : (s.setBalance n v).classifier = s.classifier := rfl
@[simp] theorem State.setBalance_map (n : StationId) (v : Nat) : (s.setBalance n v).map = s.map := rfl
@[simp] theorem State.setBalance_claims (n : StationId) (v : Nat) : (s.setBalance n v).claims = s.claims := rfl
@[simp] theorem State.setBalance_areas (n : StationId) (v : Nat) : (s.setBalance n v).areas = s.areas := rfl
@[simp] theorem State.setBalance_chain (n : StationId) (v : Nat) : (s.setBalance n v).chain = s.chain := rfl
@[simp] theorem State.setBalance_control (n : StationId) (v : Nat) : (s.setBalance n v).control = s.control := rfl
@[simp] theorem State.setBalance_tally (n : StationId) (v : Nat) : (s.setBalance n v).tally = s.tally := rfl
@[simp] theorem State.setBalance_reportsLost (n : StationId) (v : Nat) : (s.setBalance n v).reportsLost = s.reportsLost := rfl
@[simp] theorem State.setBalance_pending (n : StationId) (v : Nat) : (s.setBalance n v).pending = s.pending := rfl

/-! ### setArea -/

@[simp] theorem State.setArea_framers (a : AreaId) (x : Area) : (s.setArea a x).framers = s.framers := rfl
@[simp] theorem State.setArea_stations (a : AreaId) (x : Area) : (s.setArea a x).stations = s.stations := rfl
@[simp] theorem State.setArea_classifier (a : AreaId) (x : Area) : (s.setArea a x).classifier = s.classifier := rfl
@[simp] theorem State.setArea_map (a : AreaId) (x : Area) : (s.setArea a x).map = s.map := rfl
@[simp] theorem State.setArea_claims (a : AreaId) (x : Area) : (s.setArea a x).claims = s.claims := rfl
@[simp] theorem State.setArea_credit (a : AreaId) (x : Area) : (s.setArea a x).credit = s.credit := rfl
@[simp] theorem State.setArea_chain (a : AreaId) (x : Area) : (s.setArea a x).chain = s.chain := rfl
@[simp] theorem State.setArea_control (a : AreaId) (x : Area) : (s.setArea a x).control = s.control := rfl
@[simp] theorem State.setArea_tally (a : AreaId) (x : Area) : (s.setArea a x).tally = s.tally := rfl
@[simp] theorem State.setArea_reportsLost (a : AreaId) (x : Area) : (s.setArea a x).reportsLost = s.reportsLost := rfl
@[simp] theorem State.setArea_pending (a : AreaId) (x : Area) : (s.setArea a x).pending = s.pending := rfl

/-! ### setNode -/

@[simp] theorem State.setNode_framers (q : Position) (x : Node) : (s.setNode q x).framers = s.framers := rfl
@[simp] theorem State.setNode_stations (q : Position) (x : Node) : (s.setNode q x).stations = s.stations := rfl
@[simp] theorem State.setNode_classifier (q : Position) (x : Node) : (s.setNode q x).classifier = s.classifier := rfl
@[simp] theorem State.setNode_map (q : Position) (x : Node) : (s.setNode q x).map = s.map := rfl
@[simp] theorem State.setNode_claims (q : Position) (x : Node) : (s.setNode q x).claims = s.claims := rfl
@[simp] theorem State.setNode_credit (q : Position) (x : Node) : (s.setNode q x).credit = s.credit := rfl
@[simp] theorem State.setNode_areas (q : Position) (x : Node) : (s.setNode q x).areas = s.areas := rfl
@[simp] theorem State.setNode_control (q : Position) (x : Node) : (s.setNode q x).control = s.control := rfl
@[simp] theorem State.setNode_tally (q : Position) (x : Node) : (s.setNode q x).tally = s.tally := rfl
@[simp] theorem State.setNode_reportsLost (q : Position) (x : Node) : (s.setNode q x).reportsLost = s.reportsLost := rfl
@[simp] theorem State.setNode_pending (q : Position) (x : Node) : (s.setNode q x).pending = s.pending := rfl
@[simp] theorem State.setNode_chain_mode (q : Position) (x : Node) : (s.setNode q x).chain.mode = s.chain.mode := rfl
@[simp] theorem State.setNode_chain_replyTimeout (q : Position) (x : Node) : (s.setNode q x).chain.replyTimeout = s.chain.replyTimeout := rfl
@[simp] theorem State.setNode_chain_tags (q : Position) (x : Node) : (s.setNode q x).chain.tags = s.chain.tags := rfl
@[simp] theorem State.setNode_chain_slot (q : Position) (x : Node) : (s.setNode q x).chain.slot = s.chain.slot := rfl
@[simp] theorem State.setNode_chain_census (q : Position) (x : Node) : (s.setNode q x).chain.census = s.chain.census := rfl
@[simp] theorem State.setNode_chain_halted (q : Position) (x : Node) : (s.setNode q x).chain.halted = s.chain.halted := rfl
@[simp] theorem State.setNode_chain_sideA (q : Position) (x : Node) : (s.setNode q x).chain.sideA = s.chain.sideA := rfl
@[simp] theorem State.setNode_chain_sideB (q : Position) (x : Node) : (s.setNode q x).chain.sideB = s.chain.sideB := rfl

/-! ### setTag -/

@[simp] theorem State.setTag_framers (t : TagId) (x : Option TagRecord) : (s.setTag t x).framers = s.framers := rfl
@[simp] theorem State.setTag_stations (t : TagId) (x : Option TagRecord) : (s.setTag t x).stations = s.stations := rfl
@[simp] theorem State.setTag_classifier (t : TagId) (x : Option TagRecord) : (s.setTag t x).classifier = s.classifier := rfl
@[simp] theorem State.setTag_map (t : TagId) (x : Option TagRecord) : (s.setTag t x).map = s.map := rfl
@[simp] theorem State.setTag_claims (t : TagId) (x : Option TagRecord) : (s.setTag t x).claims = s.claims := rfl
@[simp] theorem State.setTag_credit (t : TagId) (x : Option TagRecord) : (s.setTag t x).credit = s.credit := rfl
@[simp] theorem State.setTag_areas (t : TagId) (x : Option TagRecord) : (s.setTag t x).areas = s.areas := rfl
@[simp] theorem State.setTag_control (t : TagId) (x : Option TagRecord) : (s.setTag t x).control = s.control := rfl
@[simp] theorem State.setTag_tally (t : TagId) (x : Option TagRecord) : (s.setTag t x).tally = s.tally := rfl
@[simp] theorem State.setTag_reportsLost (t : TagId) (x : Option TagRecord) : (s.setTag t x).reportsLost = s.reportsLost := rfl
@[simp] theorem State.setTag_pending (t : TagId) (x : Option TagRecord) : (s.setTag t x).pending = s.pending := rfl
@[simp] theorem State.setTag_chain_nodes (t : TagId) (x : Option TagRecord) : (s.setTag t x).chain.nodes = s.chain.nodes := rfl
@[simp] theorem State.setTag_chain_mode (t : TagId) (x : Option TagRecord) : (s.setTag t x).chain.mode = s.chain.mode := rfl
@[simp] theorem State.setTag_chain_replyTimeout (t : TagId) (x : Option TagRecord) : (s.setTag t x).chain.replyTimeout = s.chain.replyTimeout := rfl
@[simp] theorem State.setTag_chain_slot (t : TagId) (x : Option TagRecord) : (s.setTag t x).chain.slot = s.chain.slot := rfl
@[simp] theorem State.setTag_chain_census (t : TagId) (x : Option TagRecord) : (s.setTag t x).chain.census = s.chain.census := rfl
@[simp] theorem State.setTag_chain_halted (t : TagId) (x : Option TagRecord) : (s.setTag t x).chain.halted = s.chain.halted := rfl
@[simp] theorem State.setTag_chain_sideA (t : TagId) (x : Option TagRecord) : (s.setTag t x).chain.sideA = s.chain.sideA := rfl
@[simp] theorem State.setTag_chain_sideB (t : TagId) (x : Option TagRecord) : (s.setTag t x).chain.sideB = s.chain.sideB := rfl

/-! ### setCensus -/

@[simp] theorem State.setCensus_framers (x : Option Census) : (s.setCensus x).framers = s.framers := rfl
@[simp] theorem State.setCensus_stations (x : Option Census) : (s.setCensus x).stations = s.stations := rfl
@[simp] theorem State.setCensus_classifier (x : Option Census) : (s.setCensus x).classifier = s.classifier := rfl
@[simp] theorem State.setCensus_map (x : Option Census) : (s.setCensus x).map = s.map := rfl
@[simp] theorem State.setCensus_claims (x : Option Census) : (s.setCensus x).claims = s.claims := rfl
@[simp] theorem State.setCensus_credit (x : Option Census) : (s.setCensus x).credit = s.credit := rfl
@[simp] theorem State.setCensus_areas (x : Option Census) : (s.setCensus x).areas = s.areas := rfl
@[simp] theorem State.setCensus_control (x : Option Census) : (s.setCensus x).control = s.control := rfl
@[simp] theorem State.setCensus_tally (x : Option Census) : (s.setCensus x).tally = s.tally := rfl
@[simp] theorem State.setCensus_reportsLost (x : Option Census) : (s.setCensus x).reportsLost = s.reportsLost := rfl
@[simp] theorem State.setCensus_pending (x : Option Census) : (s.setCensus x).pending = s.pending := rfl
@[simp] theorem State.setCensus_chain_nodes (x : Option Census) : (s.setCensus x).chain.nodes = s.chain.nodes := rfl
@[simp] theorem State.setCensus_chain_mode (x : Option Census) : (s.setCensus x).chain.mode = s.chain.mode := rfl
@[simp] theorem State.setCensus_chain_replyTimeout (x : Option Census) : (s.setCensus x).chain.replyTimeout = s.chain.replyTimeout := rfl
@[simp] theorem State.setCensus_chain_tags (x : Option Census) : (s.setCensus x).chain.tags = s.chain.tags := rfl
@[simp] theorem State.setCensus_chain_slot (x : Option Census) : (s.setCensus x).chain.slot = s.chain.slot := rfl
@[simp] theorem State.setCensus_chain_halted (x : Option Census) : (s.setCensus x).chain.halted = s.chain.halted := rfl
@[simp] theorem State.setCensus_chain_sideA (x : Option Census) : (s.setCensus x).chain.sideA = s.chain.sideA := rfl
@[simp] theorem State.setCensus_chain_sideB (x : Option Census) : (s.setCensus x).chain.sideB = s.chain.sideB := rfl

/-! ### setSlot -/

@[simp] theorem State.setSlot_framers (x : Option DirectCommand) : (s.setSlot x).framers = s.framers := rfl
@[simp] theorem State.setSlot_stations (x : Option DirectCommand) : (s.setSlot x).stations = s.stations := rfl
@[simp] theorem State.setSlot_classifier (x : Option DirectCommand) : (s.setSlot x).classifier = s.classifier := rfl
@[simp] theorem State.setSlot_map (x : Option DirectCommand) : (s.setSlot x).map = s.map := rfl
@[simp] theorem State.setSlot_claims (x : Option DirectCommand) : (s.setSlot x).claims = s.claims := rfl
@[simp] theorem State.setSlot_credit (x : Option DirectCommand) : (s.setSlot x).credit = s.credit := rfl
@[simp] theorem State.setSlot_areas (x : Option DirectCommand) : (s.setSlot x).areas = s.areas := rfl
@[simp] theorem State.setSlot_control (x : Option DirectCommand) : (s.setSlot x).control = s.control := rfl
@[simp] theorem State.setSlot_tally (x : Option DirectCommand) : (s.setSlot x).tally = s.tally := rfl
@[simp] theorem State.setSlot_reportsLost (x : Option DirectCommand) : (s.setSlot x).reportsLost = s.reportsLost := rfl
@[simp] theorem State.setSlot_pending (x : Option DirectCommand) : (s.setSlot x).pending = s.pending := rfl
@[simp] theorem State.setSlot_chain_nodes (x : Option DirectCommand) : (s.setSlot x).chain.nodes = s.chain.nodes := rfl
@[simp] theorem State.setSlot_chain_mode (x : Option DirectCommand) : (s.setSlot x).chain.mode = s.chain.mode := rfl
@[simp] theorem State.setSlot_chain_replyTimeout (x : Option DirectCommand) : (s.setSlot x).chain.replyTimeout = s.chain.replyTimeout := rfl
@[simp] theorem State.setSlot_chain_tags (x : Option DirectCommand) : (s.setSlot x).chain.tags = s.chain.tags := rfl
@[simp] theorem State.setSlot_chain_census (x : Option DirectCommand) : (s.setSlot x).chain.census = s.chain.census := rfl
@[simp] theorem State.setSlot_chain_halted (x : Option DirectCommand) : (s.setSlot x).chain.halted = s.chain.halted := rfl
@[simp] theorem State.setSlot_chain_sideA (x : Option DirectCommand) : (s.setSlot x).chain.sideA = s.chain.sideA := rfl
@[simp] theorem State.setSlot_chain_sideB (x : Option DirectCommand) : (s.setSlot x).chain.sideB = s.chain.sideB := rfl

/-! ### setHalted -/

@[simp] theorem State.setHalted_framers (x : Bool) : (s.setHalted x).framers = s.framers := rfl
@[simp] theorem State.setHalted_stations (x : Bool) : (s.setHalted x).stations = s.stations := rfl
@[simp] theorem State.setHalted_classifier (x : Bool) : (s.setHalted x).classifier = s.classifier := rfl
@[simp] theorem State.setHalted_map (x : Bool) : (s.setHalted x).map = s.map := rfl
@[simp] theorem State.setHalted_claims (x : Bool) : (s.setHalted x).claims = s.claims := rfl
@[simp] theorem State.setHalted_credit (x : Bool) : (s.setHalted x).credit = s.credit := rfl
@[simp] theorem State.setHalted_areas (x : Bool) : (s.setHalted x).areas = s.areas := rfl
@[simp] theorem State.setHalted_control (x : Bool) : (s.setHalted x).control = s.control := rfl
@[simp] theorem State.setHalted_tally (x : Bool) : (s.setHalted x).tally = s.tally := rfl
@[simp] theorem State.setHalted_reportsLost (x : Bool) : (s.setHalted x).reportsLost = s.reportsLost := rfl
@[simp] theorem State.setHalted_pending (x : Bool) : (s.setHalted x).pending = s.pending := rfl
@[simp] theorem State.setHalted_chain_nodes (x : Bool) : (s.setHalted x).chain.nodes = s.chain.nodes := rfl
@[simp] theorem State.setHalted_chain_mode (x : Bool) : (s.setHalted x).chain.mode = s.chain.mode := rfl
@[simp] theorem State.setHalted_chain_replyTimeout (x : Bool) : (s.setHalted x).chain.replyTimeout = s.chain.replyTimeout := rfl
@[simp] theorem State.setHalted_chain_tags (x : Bool) : (s.setHalted x).chain.tags = s.chain.tags := rfl
@[simp] theorem State.setHalted_chain_slot (x : Bool) : (s.setHalted x).chain.slot = s.chain.slot := rfl
@[simp] theorem State.setHalted_chain_census (x : Bool) : (s.setHalted x).chain.census = s.chain.census := rfl
@[simp] theorem State.setHalted_chain_sideA (x : Bool) : (s.setHalted x).chain.sideA = s.chain.sideA := rfl
@[simp] theorem State.setHalted_chain_sideB (x : Bool) : (s.setHalted x).chain.sideB = s.chain.sideB := rfl

/-! ### setSide -/

@[simp] theorem State.setSide_framers (e : ChainEnd) (x : ChainSide) : (s.setSide e x).framers = s.framers := by cases e <;> rfl
@[simp] theorem State.setSide_stations (e : ChainEnd) (x : ChainSide) : (s.setSide e x).stations = s.stations := by cases e <;> rfl
@[simp] theorem State.setSide_classifier (e : ChainEnd) (x : ChainSide) : (s.setSide e x).classifier = s.classifier := by cases e <;> rfl
@[simp] theorem State.setSide_map (e : ChainEnd) (x : ChainSide) : (s.setSide e x).map = s.map := by cases e <;> rfl
@[simp] theorem State.setSide_claims (e : ChainEnd) (x : ChainSide) : (s.setSide e x).claims = s.claims := by cases e <;> rfl
@[simp] theorem State.setSide_credit (e : ChainEnd) (x : ChainSide) : (s.setSide e x).credit = s.credit := by cases e <;> rfl
@[simp] theorem State.setSide_areas (e : ChainEnd) (x : ChainSide) : (s.setSide e x).areas = s.areas := by cases e <;> rfl
@[simp] theorem State.setSide_control (e : ChainEnd) (x : ChainSide) : (s.setSide e x).control = s.control := by cases e <;> rfl
@[simp] theorem State.setSide_tally (e : ChainEnd) (x : ChainSide) : (s.setSide e x).tally = s.tally := by cases e <;> rfl
@[simp] theorem State.setSide_reportsLost (e : ChainEnd) (x : ChainSide) : (s.setSide e x).reportsLost = s.reportsLost := by cases e <;> rfl
@[simp] theorem State.setSide_pending (e : ChainEnd) (x : ChainSide) : (s.setSide e x).pending = s.pending := by cases e <;> rfl
@[simp] theorem State.setSide_chain_nodes (e : ChainEnd) (x : ChainSide) : (s.setSide e x).chain.nodes = s.chain.nodes := by cases e <;> rfl
@[simp] theorem State.setSide_chain_mode (e : ChainEnd) (x : ChainSide) : (s.setSide e x).chain.mode = s.chain.mode := by cases e <;> rfl
@[simp] theorem State.setSide_chain_replyTimeout (e : ChainEnd) (x : ChainSide) : (s.setSide e x).chain.replyTimeout = s.chain.replyTimeout := by cases e <;> rfl
@[simp] theorem State.setSide_chain_tags (e : ChainEnd) (x : ChainSide) : (s.setSide e x).chain.tags = s.chain.tags := by cases e <;> rfl
@[simp] theorem State.setSide_chain_slot (e : ChainEnd) (x : ChainSide) : (s.setSide e x).chain.slot = s.chain.slot := by cases e <;> rfl
@[simp] theorem State.setSide_chain_census (e : ChainEnd) (x : ChainSide) : (s.setSide e x).chain.census = s.chain.census := by cases e <;> rfl
@[simp] theorem State.setSide_chain_halted (e : ChainEnd) (x : ChainSide) : (s.setSide e x).chain.halted = s.chain.halted := by cases e <;> rfl

/-! ### setReportsLost -/

@[simp] theorem State.setReportsLost_framers (x : Bool) : (s.setReportsLost x).framers = s.framers := rfl
@[simp] theorem State.setReportsLost_stations (x : Bool) : (s.setReportsLost x).stations = s.stations := rfl
@[simp] theorem State.setReportsLost_classifier (x : Bool) : (s.setReportsLost x).classifier = s.classifier := rfl
@[simp] theorem State.setReportsLost_map (x : Bool) : (s.setReportsLost x).map = s.map := rfl
@[simp] theorem State.setReportsLost_claims (x : Bool) : (s.setReportsLost x).claims = s.claims := rfl
@[simp] theorem State.setReportsLost_credit (x : Bool) : (s.setReportsLost x).credit = s.credit := rfl
@[simp] theorem State.setReportsLost_areas (x : Bool) : (s.setReportsLost x).areas = s.areas := rfl
@[simp] theorem State.setReportsLost_chain (x : Bool) : (s.setReportsLost x).chain = s.chain := rfl
@[simp] theorem State.setReportsLost_control (x : Bool) : (s.setReportsLost x).control = s.control := rfl
@[simp] theorem State.setReportsLost_tally (x : Bool) : (s.setReportsLost x).tally = s.tally := rfl
@[simp] theorem State.setReportsLost_pending (x : Bool) : (s.setReportsLost x).pending = s.pending := rfl

/-! ### setTally -/

@[simp] theorem State.setTally_framers (t : Tally) : (s.setTally t).framers = s.framers := rfl
@[simp] theorem State.setTally_stations (t : Tally) : (s.setTally t).stations = s.stations := rfl
@[simp] theorem State.setTally_classifier (t : Tally) : (s.setTally t).classifier = s.classifier := rfl
@[simp] theorem State.setTally_map (t : Tally) : (s.setTally t).map = s.map := rfl
@[simp] theorem State.setTally_claims (t : Tally) : (s.setTally t).claims = s.claims := rfl
@[simp] theorem State.setTally_credit (t : Tally) : (s.setTally t).credit = s.credit := rfl
@[simp] theorem State.setTally_areas (t : Tally) : (s.setTally t).areas = s.areas := rfl
@[simp] theorem State.setTally_chain (t : Tally) : (s.setTally t).chain = s.chain := rfl
@[simp] theorem State.setTally_control (t : Tally) : (s.setTally t).control = s.control := rfl
@[simp] theorem State.setTally_reportsLost (t : Tally) : (s.setTally t).reportsLost = s.reportsLost := rfl
@[simp] theorem State.setTally_pending (t : Tally) : (s.setTally t).pending = s.pending := rfl

/-! ### setRecord -/

@[simp] theorem State.setRecord_framers (g : GoalSlot) (a : Alliance) (p : Period) (r : TallyRecord) : (s.setRecord g a p r).framers = s.framers := rfl
@[simp] theorem State.setRecord_stations (g : GoalSlot) (a : Alliance) (p : Period) (r : TallyRecord) : (s.setRecord g a p r).stations = s.stations := rfl
@[simp] theorem State.setRecord_classifier (g : GoalSlot) (a : Alliance) (p : Period) (r : TallyRecord) : (s.setRecord g a p r).classifier = s.classifier := rfl
@[simp] theorem State.setRecord_map (g : GoalSlot) (a : Alliance) (p : Period) (r : TallyRecord) : (s.setRecord g a p r).map = s.map := rfl
@[simp] theorem State.setRecord_claims (g : GoalSlot) (a : Alliance) (p : Period) (r : TallyRecord) : (s.setRecord g a p r).claims = s.claims := rfl
@[simp] theorem State.setRecord_credit (g : GoalSlot) (a : Alliance) (p : Period) (r : TallyRecord) : (s.setRecord g a p r).credit = s.credit := rfl
@[simp] theorem State.setRecord_areas (g : GoalSlot) (a : Alliance) (p : Period) (r : TallyRecord) : (s.setRecord g a p r).areas = s.areas := rfl
@[simp] theorem State.setRecord_chain (g : GoalSlot) (a : Alliance) (p : Period) (r : TallyRecord) : (s.setRecord g a p r).chain = s.chain := rfl
@[simp] theorem State.setRecord_control (g : GoalSlot) (a : Alliance) (p : Period) (r : TallyRecord) : (s.setRecord g a p r).control = s.control := rfl
@[simp] theorem State.setRecord_reportsLost (g : GoalSlot) (a : Alliance) (p : Period) (r : TallyRecord) : (s.setRecord g a p r).reportsLost = s.reportsLost := rfl
@[simp] theorem State.setRecord_pending (g : GoalSlot) (a : Alliance) (p : Period) (r : TallyRecord) : (s.setRecord g a p r).pending = s.pending := rfl

/-! ### setSettle -/

@[simp] theorem State.setSettle_framers (g : GoalSlot) (t : Option Nat) : (s.setSettle g t).framers = s.framers := rfl
@[simp] theorem State.setSettle_stations (g : GoalSlot) (t : Option Nat) : (s.setSettle g t).stations = s.stations := rfl
@[simp] theorem State.setSettle_classifier (g : GoalSlot) (t : Option Nat) : (s.setSettle g t).classifier = s.classifier := rfl
@[simp] theorem State.setSettle_map (g : GoalSlot) (t : Option Nat) : (s.setSettle g t).map = s.map := rfl
@[simp] theorem State.setSettle_claims (g : GoalSlot) (t : Option Nat) : (s.setSettle g t).claims = s.claims := rfl
@[simp] theorem State.setSettle_credit (g : GoalSlot) (t : Option Nat) : (s.setSettle g t).credit = s.credit := rfl
@[simp] theorem State.setSettle_areas (g : GoalSlot) (t : Option Nat) : (s.setSettle g t).areas = s.areas := rfl
@[simp] theorem State.setSettle_chain (g : GoalSlot) (t : Option Nat) : (s.setSettle g t).chain = s.chain := rfl
@[simp] theorem State.setSettle_control (g : GoalSlot) (t : Option Nat) : (s.setSettle g t).control = s.control := rfl
@[simp] theorem State.setSettle_reportsLost (g : GoalSlot) (t : Option Nat) : (s.setSettle g t).reportsLost = s.reportsLost := rfl
@[simp] theorem State.setSettle_pending (g : GoalSlot) (t : Option Nat) : (s.setSettle g t).pending = s.pending := rfl

/-! ### setControl -/

@[simp] theorem State.setControl_framers (x : PhaseControl) : (s.setControl x).framers = s.framers := rfl
@[simp] theorem State.setControl_stations (x : PhaseControl) : (s.setControl x).stations = s.stations := rfl
@[simp] theorem State.setControl_classifier (x : PhaseControl) : (s.setControl x).classifier = s.classifier := rfl
@[simp] theorem State.setControl_map (x : PhaseControl) : (s.setControl x).map = s.map := rfl
@[simp] theorem State.setControl_claims (x : PhaseControl) : (s.setControl x).claims = s.claims := rfl
@[simp] theorem State.setControl_credit (x : PhaseControl) : (s.setControl x).credit = s.credit := rfl
@[simp] theorem State.setControl_areas (x : PhaseControl) : (s.setControl x).areas = s.areas := rfl
@[simp] theorem State.setControl_chain (x : PhaseControl) : (s.setControl x).chain = s.chain := rfl
@[simp] theorem State.setControl_tally (x : PhaseControl) : (s.setControl x).tally = s.tally := rfl
@[simp] theorem State.setControl_reportsLost (x : PhaseControl) : (s.setControl x).reportsLost = s.reportsLost := rfl
@[simp] theorem State.setControl_pending (x : PhaseControl) : (s.setControl x).pending = s.pending := rfl

/-! ### Reading what was written -/

@[simp] theorem State.setCensus_census (x : Option Census) : (s.setCensus x).chain.census = x := rfl
@[simp] theorem State.setSlot_slot (x : Option DirectCommand) : (s.setSlot x).chain.slot = x := rfl
@[simp] theorem State.setHalted_halted (x : Bool) : (s.setHalted x).chain.halted = x := rfl
@[simp] theorem State.setMap_map (m : ArenaMap) : (s.setMap m).map = m := rfl
@[simp] theorem State.setTally_tally (t : Tally) : (s.setTally t).tally = t := rfl
@[simp] theorem State.setControl_control (c : PhaseControl) : (s.setControl c).control = c := rfl
@[simp] theorem State.setReportsLost_reportsLost (x : Bool) : (s.setReportsLost x).reportsLost = x := rfl
@[simp] theorem State.setSettle_goals (g : GoalSlot) (t : Option Nat) : (s.setSettle g t).tally.goals = s.tally.goals := rfl
@[simp] theorem State.setSettle_records (g : GoalSlot) (t : Option Nat) :
    (s.setSettle g t).tally.records = s.tally.records := rfl
@[simp] theorem State.setSettle_bonus (g : GoalSlot) (t : Option Nat) : (s.setSettle g t).tally.bonus = s.tally.bonus := rfl
@[simp] theorem State.setSettle_penalty (g : GoalSlot) (t : Option Nat) :
    (s.setSettle g t).tally.penalty = s.tally.penalty := rfl
@[simp] theorem State.setSettle_final (g : GoalSlot) (t : Option Nat) : (s.setSettle g t).tally.final = s.tally.final := rfl
@[simp] theorem State.setRecord_goals (g : GoalSlot) (a : Alliance) (p : Period) (r : TallyRecord) :
    (s.setRecord g a p r).tally.goals = s.tally.goals := rfl
@[simp] theorem State.setRecord_settle (g : GoalSlot) (a : Alliance) (p : Period) (r : TallyRecord) :
    (s.setRecord g a p r).tally.settle = s.tally.settle := rfl
@[simp] theorem State.setRecord_bonus (g : GoalSlot) (a : Alliance) (p : Period) (r : TallyRecord) :
    (s.setRecord g a p r).tally.bonus = s.tally.bonus := rfl
@[simp] theorem State.setRecord_penalty (g : GoalSlot) (a : Alliance) (p : Period) (r : TallyRecord) :
    (s.setRecord g a p r).tally.penalty = s.tally.penalty := rfl
@[simp] theorem State.setRecord_final (g : GoalSlot) (a : Alliance) (p : Period) (r : TallyRecord) :
    (s.setRecord g a p r).tally.final = s.tally.final := rfl
@[simp] theorem State.setBalance_rate (n : StationId) (b : Nat) : (s.setBalance n b).credit.rate = s.credit.rate := rfl
@[simp] theorem State.setBalance_burst (n : StationId) (b : Nat) : (s.setBalance n b).credit.burst = s.credit.burst := rfl
@[simp] theorem State.setStation_staleLimit (n : StationId) (x : Station) :
    (s.setStation n x).stations.staleLimit = s.stations.staleLimit := rfl
@[simp] theorem State.setRule_active (i : RuleIx) (x : Rule) : (s.setRule i x).classifier.active = s.classifier.active := rfl
@[simp] theorem State.setRule_defaults (i : RuleIx) (x : Rule) :
    (s.setRule i x).classifier.defaults = s.classifier.defaults := rfl

@[simp] theorem State.station_setStation_self (n : StationId) (x : Station) : (s.setStation n x).station n = x := by
  simp [State.setStation, State.station]

theorem State.station_setStation (n : StationId) (x : Station) (j : StationId) : (s.setStation n x).station j = if j = n then x else s.station j := by
  simp [State.setStation, State.station, Table.get_set]

@[simp] theorem State.rule_setRule_self (i : RuleIx) (x : Rule) : (s.setRule i x).rule i = x := by
  simp [State.setRule, State.rule]

theorem State.rule_setRule (i : RuleIx) (x : Rule) (j : RuleIx) : (s.setRule i x).rule j = if j = i then x else s.rule j := by
  simp [State.setRule, State.rule, Table.get_set]

@[simp] theorem State.claim_setClaim_self (q : Position) (x : ClaimEntry) : (s.setClaim q x).claim q = x := by
  simp [State.setClaim, State.claim]

theorem State.claim_setClaim (q : Position) (x : ClaimEntry) (j : Position) : (s.setClaim q x).claim j = if j = q then x else s.claim j := by
  simp [State.setClaim, State.claim, Table.get_set]

@[simp] theorem State.balance_setBalance_self (n : StationId) (x : Nat) : (s.setBalance n x).balance n = x := by
  simp [State.setBalance, State.balance]

theorem State.balance_setBalance (n : StationId) (x : Nat) (j : StationId) : (s.setBalance n x).balance j = if j = n then x else s.balance j := by
  simp [State.setBalance, State.balance, Table.get_set]

@[simp] theorem State.area_setArea_self (a : AreaId) (x : Area) : (s.setArea a x).area a = x := by
  simp [State.setArea, State.area]

theorem State.area_setArea (a : AreaId) (x : Area) (j : AreaId) : (s.setArea a x).area j = if j = a then x else s.area j := by
  simp [State.setArea, State.area, Table.get_set]

@[simp] theorem State.node_setNode_self (q : Position) (x : Node) : (s.setNode q x).node q = x := by
  simp [State.setNode, State.node]

theorem State.node_setNode (q : Position) (x : Node) (j : Position) : (s.setNode q x).node j = if j = q then x else s.node j := by
  simp [State.setNode, State.node, Table.get_set]

@[simp] theorem State.tag_setTag_self (t : TagId) (x : Option TagRecord) : (s.setTag t x).tag t = x := by
  simp [State.setTag, State.tag]

theorem State.tag_setTag (t : TagId) (x : Option TagRecord) (j : TagId) : (s.setTag t x).tag j = if j = t then x else s.tag j := by
  simp [State.setTag, State.tag, Table.get_set]

@[simp] theorem State.port_setPort_self (p : Port) (x : PortState) : (s.setPort p x).port p = x := by
  cases p <;> simp [State.setPort, State.port]

theorem State.port_setPort (p : Port) (x : PortState) (r : Port) :
    (s.setPort p x).port r = if r = p then x else s.port r := by
  cases p <;> cases r <;> simp [State.setPort, State.port, Table.get_set]

@[simp] theorem State.side_setSide_self (e : ChainEnd) (x : ChainSide) : (s.setSide e x).side e = x := by cases e <;> rfl

theorem State.side_setSide (e : ChainEnd) (x : ChainSide) (d : ChainEnd) :
    (s.setSide e x).side d = if d = e then x else s.side d := by
  cases e <;> cases d <;> rfl

theorem PeriodRecords.get_set (x : PeriodRecords) (p : Period) (r : TallyRecord) (k : Period) :
    (x.set p r).get k = if k = p then r else x.get k := by
  cases p <;> cases k <;> rfl

theorem State.record_setRecord (g : GoalSlot) (a : Alliance) (p : Period) (r : TallyRecord) (g' : GoalSlot)
    (a' : Alliance) (p' : Period) :
    (s.setRecord g a p r).record g' a' p' = if g' = g ∧ a' = a ∧ p' = p then r else s.record g' a' p' := by
  simp only [State.setRecord, State.record, State.setTally, Table.get_set]
  by_cases hg : g' = g
  · subst hg
    by_cases ha : a' = a
    · subst ha; simp [PeriodRecords.get_set]
    · simp [ha, Table.get_set]
  · simp [hg]

/-! ### Reading one record where another block was updated -/

@[simp] theorem State.station_setPort_keep (p : Port) (x : PortState) (k : StationId) : (s.setPort p x).station k = s.station k := by cases p <;> rfl
@[simp] theorem State.rule_setPort_keep (p : Port) (x : PortState) (k : RuleIx) : (s.setPort p x).rule k = s.rule k := by cases p <;> rfl
@[simp] theorem State.claim_setPort_keep (p : Port) (x : PortState) (k : Position) : (s.setPort p x).claim k = s.claim k := by cases p <;> rfl
@[simp] theorem State.balance_setPort_keep (p : Port) (x : PortState) (k : StationId) : (s.setPort p x).balance k = s.balance k := by cases p <;> rfl
@[simp] theorem State.area_setPort_keep (p : Port) (x : PortState) (k : AreaId) : (s.setPort p x).area k = s.area k := by cases p <;> rfl
@[simp] theorem State.node_setPort_keep (p : Port) (x : PortState) (k : Position) : (s.setPort p x).node k = s.node k := by cases p <;> rfl
@[simp] theorem State.tag_setPort_keep (p : Port) (x : PortState) (k : TagId) : (s.setPort p x).tag k = s.tag k := by cases p <;> rfl
@[simp] theorem State.side_setPort_keep (p : Port) (x : PortState) (k : ChainEnd) : (s.setPort p x).side k = s.side k := by cases p <;> cases k <;> rfl
@[simp] theorem State.profile_setPort_keep (p : Port) (x : PortState) (k : Position) : (s.setPort p x).profile k = s.profile k := by cases p <;> rfl
@[simp] theorem State.goal_setPort_keep (p : Port) (x : PortState) (k : GoalSlot) : (s.setPort p x).goal k = s.goal k := by cases p <;> rfl
@[simp] theorem State.record_setPort_keep (p : Port) (x : PortState) (k : GoalSlot) (c : Alliance) (d : Period) : (s.setPort p x).record k c d = s.record k c d := by cases p <;> rfl
@[simp] theorem State.port_setStation_keep (n : StationId) (x : Station) (w : Port) : (s.setStation n x).port w = s.port w := by cases w <;> rfl
@[simp] theorem State.rule_setStation_keep (n : StationId) (x : Station) (k : RuleIx) : (s.setStation n x).rule k = s.rule k := rfl
@[simp] theorem State.claim_setStation_keep (n : StationId) (x : Station) (k : Position) : (s.setStation n x).claim k = s.claim k := rfl
@[simp] theorem State.balance_setStation_keep (n : StationId) (x : Station) (k : StationId) : (s.setStation n x).balance k = s.balance k := rfl
@[simp] theorem State.area_setStation_keep (n : StationId) (x : Station) (k : AreaId) : (s.setStation n x).area k = s.area k := rfl
@[simp] theorem State.node_setStation_keep (n : StationId) (x : Station) (k : Position) : (s.setStation n x).node k = s.node k := rfl
@[simp] theorem State.tag_setStation_keep (n : StationId) (x : Station) (k : TagId) : (s.setStation n x).tag k = s.tag k := rfl
@[simp] theorem State.side_setStation_keep (n : StationId) (x : Station) (k : ChainEnd) : (s.setStation n x).side k = s.side k := by cases k <;> rfl
@[simp] theorem State.profile_setStation_keep (n : StationId) (x : Station) (k : Position) : (s.setStation n x).profile k = s.profile k := rfl
@[simp] theorem State.goal_setStation_keep (n : StationId) (x : Station) (k : GoalSlot) : (s.setStation n x).goal k = s.goal k := rfl
@[simp] theorem State.record_setStation_keep (n : StationId) (x : Station) (k : GoalSlot) (c : Alliance) (d : Period) : (s.setStation n x).record k c d = s.record k c d := rfl
@[simp] theorem State.port_setRule_keep (i : RuleIx) (x : Rule) (w : Port) : (s.setRule i x).port w = s.port w := by cases w <;> rfl
@[simp] theorem State.station_setRule_keep (i : RuleIx) (x : Rule) (k : StationId) : (s.setRule i x).station k = s.station k := rfl
@[simp] theorem State.claim_setRule_keep (i : RuleIx) (x : Rule) (k : Position) : (s.setRule i x).claim k = s.claim k := rfl
@[simp] theorem State.balance_setRule_keep (i : RuleIx) (x : Rule) (k : StationId) : (s.setRule i x).balance k = s.balance k := rfl
@[simp] theorem State.area_setRule_keep (i : RuleIx) (x : Rule) (k : AreaId) : (s.setRule i x).area k = s.area k := rfl
@[simp] theorem State.node_setRule_keep (i : RuleIx) (x : Rule) (k : Position) : (s.setRule i x).node k = s.node k := rfl
@[simp] theorem State.tag_setRule_keep (i : RuleIx) (x : Rule) (k : TagId) : (s.setRule i x).tag k = s.tag k := rfl
@[simp] theorem State.side_setRule_keep (i : RuleIx) (x : Rule) (k : ChainEnd) : (s.setRule i x).side k = s.side k := by cases k <;> rfl
@[simp] theorem State.profile_setRule_keep (i : RuleIx) (x : Rule) (k : Position) : (s.setRule i x).profile k = s.profile k := rfl
@[simp] theorem State.goal_setRule_keep (i : RuleIx) (x : Rule) (k : GoalSlot) : (s.setRule i x).goal k = s.goal k := rfl
@[simp] theorem State.record_setRule_keep (i : RuleIx) (x : Rule) (k : GoalSlot) (c : Alliance) (d : Period) : (s.setRule i x).record k c d = s.record k c d := rfl
@[simp] theorem State.port_setMap_keep (m : ArenaMap) (w : Port) : (s.setMap m).port w = s.port w := by cases w <;> rfl
@[simp] theorem State.station_setMap_keep (m : ArenaMap) (k : StationId) : (s.setMap m).station k = s.station k := rfl
@[simp] theorem State.rule_setMap_keep (m : ArenaMap) (k : RuleIx) : (s.setMap m).rule k = s.rule k := rfl
@[simp] theorem State.claim_setMap_keep (m : ArenaMap) (k : Position) : (s.setMap m).claim k = s.claim k := rfl
@[simp] theorem State.balance_setMap_keep (m : ArenaMap) (k : StationId) : (s.setMap m).balance k = s.balance k := rfl
@[simp] theorem State.area_setMap_keep (m : ArenaMap) (k : AreaId) : (s.setMap m).area k = s.area k := rfl
@[simp] theorem State.node_setMap_keep (m : ArenaMap) (k : Position) : (s.setMap m).node k = s.node k := rfl
@[simp] theorem State.tag_setMap_keep (m : ArenaMap) (k : TagId) : (s.setMap m).tag k = s.tag k := rfl
@[simp] theorem State.side_setMap_keep (m : ArenaMap) (k : ChainEnd) : (s.setMap m).side k = s.side k := by cases k <;> rfl
@[simp] theorem State.goal_setMap_keep (m : ArenaMap) (k : GoalSlot) : (s.setMap m).goal k = s.goal k := rfl
@[simp] theorem State.record_setMap_keep (m : ArenaMap) (k : GoalSlot) (c : Alliance) (d : Period) : (s.setMap m).record k c d = s.record k c d := rfl
@[simp] theorem State.port_setClaim_keep (q : Position) (x : ClaimEntry) (w : Port) : (s.setClaim q x).port w = s.port w := by cases w <;> rfl
@[simp] theorem State.station_setClaim_keep (q : Position) (x : ClaimEntry) (k : StationId) : (s.setClaim q x).station k = s.station k := rfl
@[simp] theorem State.rule_setClaim_keep (q : Position) (x : ClaimEntry) (k : RuleIx) : (s.setClaim q x).rule k = s.rule k := rfl
@[simp] theorem State.balance_setClaim_keep (q : Position) (x : ClaimEntry) (k : StationId) : (s.setClaim q x).balance k = s.balance k := rfl
@[simp] theorem State.area_setClaim_keep (q : Position) (x : ClaimEntry) (k : AreaId) : (s.setClaim q x).area k = s.area k := rfl
@[simp] theorem State.node_setClaim_keep (q : Position) (x : ClaimEntry) (k : Position) : (s.setClaim q x).node k = s.node k := rfl
@[simp] theorem State.tag_setClaim_keep (q : Position) (x : ClaimEntry) (k : TagId) : (s.setClaim q x).tag k = s.tag k := rfl
@[simp] theorem State.side_setClaim_keep (q : Position) (x : ClaimEntry) (k : ChainEnd) : (s.setClaim q x).side k = s.side k := by cases k <;> rfl
@[simp] theorem State.profile_setClaim_keep (q : Position) (x : ClaimEntry) (k : Position) : (s.setClaim q x).profile k = s.profile k := rfl
@[simp] theorem State.goal_setClaim_keep (q : Position) (x : ClaimEntry) (k : GoalSlot) : (s.setClaim q x).goal k = s.goal k := rfl
@[simp] theorem State.record_setClaim_keep (q : Position) (x : ClaimEntry) (k : GoalSlot) (c : Alliance) (d : Period) : (s.setClaim q x).record k c d = s.record k c d := rfl
@[simp] theorem State.port_setBalance_keep (n : StationId) (v : Nat) (w : Port) : (s.setBalance n v).port w = s.port w := by cases w <;> rfl
@[simp] theorem State.station_setBalance_keep (n : StationId) (v : Nat) (k : StationId) : (s.setBalance n v).station k = s.station k := rfl
@[simp] theorem State.rule_setBalance_keep (n : StationId) (v : Nat) (k : RuleIx) : (s.setBalance n v).rule k = s.rule k := rfl
@[simp] theorem State.claim_setBalance_keep (n : StationId) (v : Nat) (k : Position) : (s.setBalance n v).claim k = s.claim k := rfl
@[simp] theorem State.area_setBalance_keep (n : StationId) (v : Nat) (k : AreaId) : (s.setBalance n v).area k = s.area k := rfl
@[simp] theorem State.node_setBalance_keep (n : StationId) (v : Nat) (k : Position) : (s.setBalance n v).node k = s.node k := rfl
@[simp] theorem State.tag_setBalance_keep (n : StationId) (v : Nat) (k : TagId) : (s.setBalance n v).tag k = s.tag k := rfl
@[simp] theorem State.side_setBalance_keep (n : StationId) (v : Nat) (k : ChainEnd) : (s.setBalance n v).side k = s.side k := by cases k <;> rfl
@[simp] theorem State.profile_setBalance_keep (n : StationId) (v : Nat) (k : Position) : (s.setBalance n v).profile k = s.profile k := rfl
@[simp] theorem State.goal_setBalance_keep (n : StationId) (v : Nat) (k : GoalSlot) : (s.setBalance n v).goal k = s.goal k := rfl
@[simp] theorem State.record_setBalance_keep (n : StationId) (v : Nat) (k : GoalSlot) (c : Alliance) (d : Period) : (s.setBalance n v).record k c d = s.record k c d := rfl
@[simp] theorem State.port_setArea_keep (a : AreaId) (x : Area) (w : Port) : (s.setArea a x).port w = s.port w := by cases w <;> rfl
@[simp] theorem State.station_setArea_keep (a : AreaId) (x : Area) (k : StationId) : (s.setArea a x).station k = s.station k := rfl
@[simp] theorem State.rule_setArea_keep (a : AreaId) (x : Area) (k : RuleIx) : (s.setArea a x).rule k = s.rule k := rfl
@[simp] theorem State.claim_setArea_keep (a : AreaId) (x : Area) (k : Position) : (s.setArea a x).claim k = s.claim k := rfl
@[simp] theorem State.balance_setArea_keep (a : AreaId) (x : Area) (k : StationId) : (s.setArea a x).balance k = s.balance k := rfl
@[simp] theorem State.node_setArea_keep (a : AreaId) (x : Area) (k : Position) : (s.setArea a x).node k = s.node k := rfl
@[simp] theorem State.tag_setArea_keep (a : AreaId) (x : Area) (k : TagId) : (s.setArea a x).tag k = s.tag k := rfl
@[simp] theorem State.side_setArea_keep (a : AreaId) (x : Area) (k : ChainEnd) : (s.setArea a x).side k = s.side k := by cases k <;> rfl
@[simp] theorem State.profile_setArea_keep (a : AreaId) (x : Area) (k : Position) : (s.setArea a x).profile k = s.profile k := rfl
@[simp] theorem State.goal_setArea_keep (a : AreaId) (x : Area) (k : GoalSlot) : (s.setArea a x).goal k = s.goal k := rfl
@[simp] theorem State.record_setArea_keep (a : AreaId) (x : Area) (k : GoalSlot) (c : Alliance) (d : Period) : (s.setArea a x).record k c d = s.record k c d := rfl
@[simp] theorem State.port_setNode_keep (q : Position) (x : Node) (w : Port) : (s.setNode q x).port w = s.port w := by cases w <;> rfl
@[simp] theorem State.station_setNode_keep (q : Position) (x : Node) (k : StationId) : (s.setNode q x).station k = s.station k := rfl
@[simp] theorem State.rule_setNode_keep (q : Position) (x : Node) (k : RuleIx) : (s.setNode q x).rule k = s.rule k := rfl
@[simp] theorem State.claim_setNode_keep (q : Position) (x : Node) (k : Position) : (s.setNode q x).claim k = s.claim k := rfl
@[simp] theorem State.balance_setNode_keep (q : Position) (x : Node) (k : StationId) : (s.setNode q x).balance k = s.balance k := rfl
@[simp] theorem State.area_setNode_keep (q : Position) (x : Node) (k : AreaId) : (s.setNode q x).area k = s.area k := rfl
@[simp] theorem State.tag_setNode_keep (q : Position) (x : Node) (k : TagId) : (s.setNode q x).tag k = s.tag k := rfl
@[simp] theorem State.side_setNode_keep (q : Position) (x : Node) (k : ChainEnd) : (s.setNode q x).side k = s.side k := by cases k <;> rfl
@[simp] theorem State.profile_setNode_keep (q : Position) (x : Node) (k : Position) : (s.setNode q x).profile k = s.profile k := rfl
@[simp] theorem State.goal_setNode_keep (q : Position) (x : Node) (k : GoalSlot) : (s.setNode q x).goal k = s.goal k := rfl
@[simp] theorem State.record_setNode_keep (q : Position) (x : Node) (k : GoalSlot) (c : Alliance) (d : Period) : (s.setNode q x).record k c d = s.record k c d := rfl
@[simp] theorem State.port_setTag_keep (t : TagId) (x : Option TagRecord) (w : Port) : (s.setTag t x).port w = s.port w := by cases w <;> rfl
@[simp] theorem State.station_setTag_keep (t : TagId) (x : Option TagRecord) (k : StationId) : (s.setTag t x).station k = s.station k := rfl
@[simp] theorem State.rule_setTag_keep (t : TagId) (x : Option TagRecord) (k : RuleIx) : (s.setTag t x).rule k = s.rule k := rfl
@[simp] theorem State.claim_setTag_keep (t : TagId) (x : Option TagRecord) (k : Position) : (s.setTag t x).claim k = s.claim k := rfl
@[simp] theorem State.balance_setTag_keep (t : TagId) (x : Option TagRecord) (k : StationId) : (s.setTag t x).balance k = s.balance k := rfl
@[simp] theorem State.area_setTag_keep (t : TagId) (x : Option TagRecord) (k : AreaId) : (s.setTag t x).area k = s.area k := rfl
@[simp] theorem State.node_setTag_keep (t : TagId) (x : Option TagRecord) (k : Position) : (s.setTag t x).node k = s.node k := rfl
@[simp] theorem State.side_setTag_keep (t : TagId) (x : Option TagRecord) (k : ChainEnd) : (s.setTag t x).side k = s.side k := by cases k <;> rfl
@[simp] theorem State.profile_setTag_keep (t : TagId) (x : Option TagRecord) (k : Position) : (s.setTag t x).profile k = s.profile k := rfl
@[simp] theorem State.goal_setTag_keep (t : TagId) (x : Option TagRecord) (k : GoalSlot) : (s.setTag t x).goal k = s.goal k := rfl
@[simp] theorem State.record_setTag_keep (t : TagId) (x : Option TagRecord) (k : GoalSlot) (c : Alliance) (d : Period) : (s.setTag t x).record k c d = s.record k c d := rfl
@[simp] theorem State.port_setCensus_keep (x : Option Census) (w : Port) : (s.setCensus x).port w = s.port w := by cases w <;> rfl
@[simp] theorem State.station_setCensus_keep (x : Option Census) (k : StationId) : (s.setCensus x).station k = s.station k := rfl
@[simp] theorem State.rule_setCensus_keep (x : Option Census) (k : RuleIx) : (s.setCensus x).rule k = s.rule k := rfl
@[simp] theorem State.claim_setCensus_keep (x : Option Census) (k : Position) : (s.setCensus x).claim k = s.claim k := rfl
@[simp] theorem State.balance_setCensus_keep (x : Option Census) (k : StationId) : (s.setCensus x).balance k = s.balance k := rfl
@[simp] theorem State.area_setCensus_keep (x : Option Census) (k : AreaId) : (s.setCensus x).area k = s.area k := rfl
@[simp] theorem State.node_setCensus_keep (x : Option Census) (k : Position) : (s.setCensus x).node k = s.node k := rfl
@[simp] theorem State.tag_setCensus_keep (x : Option Census) (k : TagId) : (s.setCensus x).tag k = s.tag k := rfl
@[simp] theorem State.side_setCensus_keep (x : Option Census) (k : ChainEnd) : (s.setCensus x).side k = s.side k := by cases k <;> rfl
@[simp] theorem State.profile_setCensus_keep (x : Option Census) (k : Position) : (s.setCensus x).profile k = s.profile k := rfl
@[simp] theorem State.goal_setCensus_keep (x : Option Census) (k : GoalSlot) : (s.setCensus x).goal k = s.goal k := rfl
@[simp] theorem State.record_setCensus_keep (x : Option Census) (k : GoalSlot) (c : Alliance) (d : Period) : (s.setCensus x).record k c d = s.record k c d := rfl
@[simp] theorem State.port_setSlot_keep (x : Option DirectCommand) (w : Port) : (s.setSlot x).port w = s.port w := by cases w <;> rfl
@[simp] theorem State.station_setSlot_keep (x : Option DirectCommand) (k : StationId) : (s.setSlot x).station k = s.station k := rfl
@[simp] theorem State.rule_setSlot_keep (x : Option DirectCommand) (k : RuleIx) : (s.setSlot x).rule k = s.rule k := rfl
@[simp] theorem State.claim_setSlot_keep (x : Option DirectCommand) (k : Position) : (s.setSlot x).claim k = s.claim k := rfl
@[simp] theorem State.balance_setSlot_keep (x : Option DirectCommand) (k : StationId) : (s.setSlot x).balance k = s.balance k := rfl
@[simp] theorem State.area_setSlot_keep (x : Option DirectCommand) (k : AreaId) : (s.setSlot x).area k = s.area k := rfl
@[simp] theorem State.node_setSlot_keep (x : Option DirectCommand) (k : Position) : (s.setSlot x).node k = s.node k := rfl
@[simp] theorem State.tag_setSlot_keep (x : Option DirectCommand) (k : TagId) : (s.setSlot x).tag k = s.tag k := rfl
@[simp] theorem State.side_setSlot_keep (x : Option DirectCommand) (k : ChainEnd) : (s.setSlot x).side k = s.side k := by cases k <;> rfl
@[simp] theorem State.profile_setSlot_keep (x : Option DirectCommand) (k : Position) : (s.setSlot x).profile k = s.profile k := rfl
@[simp] theorem State.goal_setSlot_keep (x : Option DirectCommand) (k : GoalSlot) : (s.setSlot x).goal k = s.goal k := rfl
@[simp] theorem State.record_setSlot_keep (x : Option DirectCommand) (k : GoalSlot) (c : Alliance) (d : Period) : (s.setSlot x).record k c d = s.record k c d := rfl
@[simp] theorem State.port_setHalted_keep (x : Bool) (w : Port) : (s.setHalted x).port w = s.port w := by cases w <;> rfl
@[simp] theorem State.station_setHalted_keep (x : Bool) (k : StationId) : (s.setHalted x).station k = s.station k := rfl
@[simp] theorem State.rule_setHalted_keep (x : Bool) (k : RuleIx) : (s.setHalted x).rule k = s.rule k := rfl
@[simp] theorem State.claim_setHalted_keep (x : Bool) (k : Position) : (s.setHalted x).claim k = s.claim k := rfl
@[simp] theorem State.balance_setHalted_keep (x : Bool) (k : StationId) : (s.setHalted x).balance k = s.balance k := rfl
@[simp] theorem State.area_setHalted_keep (x : Bool) (k : AreaId) : (s.setHalted x).area k = s.area k := rfl
@[simp] theorem State.node_setHalted_keep (x : Bool) (k : Position) : (s.setHalted x).node k = s.node k := rfl
@[simp] theorem State.tag_setHalted_keep (x : Bool) (k : TagId) : (s.setHalted x).tag k = s.tag k := rfl
@[simp] theorem State.side_setHalted_keep (x : Bool) (k : ChainEnd) : (s.setHalted x).side k = s.side k := by cases k <;> rfl
@[simp] theorem State.profile_setHalted_keep (x : Bool) (k : Position) : (s.setHalted x).profile k = s.profile k := rfl
@[simp] theorem State.goal_setHalted_keep (x : Bool) (k : GoalSlot) : (s.setHalted x).goal k = s.goal k := rfl
@[simp] theorem State.record_setHalted_keep (x : Bool) (k : GoalSlot) (c : Alliance) (d : Period) : (s.setHalted x).record k c d = s.record k c d := rfl
@[simp] theorem State.port_setSide_keep (e : ChainEnd) (x : ChainSide) (w : Port) : (s.setSide e x).port w = s.port w := by cases e <;> cases w <;> rfl
@[simp] theorem State.station_setSide_keep (e : ChainEnd) (x : ChainSide) (k : StationId) : (s.setSide e x).station k = s.station k := by cases e <;> rfl
@[simp] theorem State.rule_setSide_keep (e : ChainEnd) (x : ChainSide) (k : RuleIx) : (s.setSide e x).rule k = s.rule k := by cases e <;> rfl
@[simp] theorem State.claim_setSide_keep (e : ChainEnd) (x : ChainSide) (k : Position) : (s.setSide e x).claim k = s.claim k := by cases e <;> rfl
@[simp] theorem State.balance_setSide_keep (e : ChainEnd) (x : ChainSide) (k : StationId) : (s.setSide e x).balance k = s.balance k := by cases e <;> rfl
@[simp] theorem State.area_setSide_keep (e : ChainEnd) (x : ChainSide) (k : AreaId) : (s.setSide e x).area k = s.area k := by cases e <;> rfl
@[simp] theorem State.node_setSide_keep (e : ChainEnd) (x : ChainSide) (k : Position) : (s.setSide e x).node k = s.node k := by cases e <;> rfl
@[simp] theorem State.tag_setSide_keep (e : ChainEnd) (x : ChainSide) (k : TagId) : (s.setSide e x).tag k = s.tag k := by cases e <;> rfl
@[simp] theorem State.profile_setSide_keep (e : ChainEnd) (x : ChainSide) (k : Position) : (s.setSide e x).profile k = s.profile k := by cases e <;> rfl
@[simp] theorem State.goal_setSide_keep (e : ChainEnd) (x : ChainSide) (k : GoalSlot) : (s.setSide e x).goal k = s.goal k := by cases e <;> rfl
@[simp] theorem State.record_setSide_keep (e : ChainEnd) (x : ChainSide) (k : GoalSlot) (c : Alliance) (d : Period) : (s.setSide e x).record k c d = s.record k c d := by cases e <;> rfl
@[simp] theorem State.port_setReportsLost_keep (x : Bool) (w : Port) : (s.setReportsLost x).port w = s.port w := by cases w <;> rfl
@[simp] theorem State.station_setReportsLost_keep (x : Bool) (k : StationId) : (s.setReportsLost x).station k = s.station k := rfl
@[simp] theorem State.rule_setReportsLost_keep (x : Bool) (k : RuleIx) : (s.setReportsLost x).rule k = s.rule k := rfl
@[simp] theorem State.claim_setReportsLost_keep (x : Bool) (k : Position) : (s.setReportsLost x).claim k = s.claim k := rfl
@[simp] theorem State.balance_setReportsLost_keep (x : Bool) (k : StationId) : (s.setReportsLost x).balance k = s.balance k := rfl
@[simp] theorem State.area_setReportsLost_keep (x : Bool) (k : AreaId) : (s.setReportsLost x).area k = s.area k := rfl
@[simp] theorem State.node_setReportsLost_keep (x : Bool) (k : Position) : (s.setReportsLost x).node k = s.node k := rfl
@[simp] theorem State.tag_setReportsLost_keep (x : Bool) (k : TagId) : (s.setReportsLost x).tag k = s.tag k := rfl
@[simp] theorem State.side_setReportsLost_keep (x : Bool) (k : ChainEnd) : (s.setReportsLost x).side k = s.side k := by cases k <;> rfl
@[simp] theorem State.profile_setReportsLost_keep (x : Bool) (k : Position) : (s.setReportsLost x).profile k = s.profile k := rfl
@[simp] theorem State.goal_setReportsLost_keep (x : Bool) (k : GoalSlot) : (s.setReportsLost x).goal k = s.goal k := rfl
@[simp] theorem State.record_setReportsLost_keep (x : Bool) (k : GoalSlot) (c : Alliance) (d : Period) : (s.setReportsLost x).record k c d = s.record k c d := rfl
@[simp] theorem State.port_setTally_keep (t : Tally) (w : Port) : (s.setTally t).port w = s.port w := by cases w <;> rfl
@[simp] theorem State.station_setTally_keep (t : Tally) (k : StationId) : (s.setTally t).station k = s.station k := rfl
@[simp] theorem State.rule_setTally_keep (t : Tally) (k : RuleIx) : (s.setTally t).rule k = s.rule k := rfl
@[simp] theorem State.claim_setTally_keep (t : Tally) (k : Position) : (s.setTally t).claim k = s.claim k := rfl
@[simp] theorem State.balance_setTally_keep (t : Tally) (k : StationId) : (s.setTally t).balance k = s.balance k := rfl
@[simp] theorem State.area_setTally_keep (t : Tally) (k : AreaId) : (s.setTally t).area k = s.area k := rfl
@[simp] theorem State.node_setTally_keep (t : Tally) (k : Position) : (s.setTally t).node k = s.node k := rfl
@[simp] theorem State.tag_setTally_keep (t : Tally) (k : TagId) : (s.setTally t).tag k = s.tag k := rfl
@[simp] theorem State.side_setTally_keep (t : Tally) (k : ChainEnd) : (s.setTally t).side k = s.side k := by cases k <;> rfl
@[simp] theorem State.profile_setTally_keep (t : Tally) (k : Position) : (s.setTally t).profile k = s.profile k := rfl
@[simp] theorem State.port_setRecord_keep (g : GoalSlot) (a : Alliance) (p : Period) (r : TallyRecord) (w : Port) : (s.setRecord g a p r).port w = s.port w := by cases w <;> rfl
@[simp] theorem State.station_setRecord_keep (g : GoalSlot) (a : Alliance) (p : Period) (r : TallyRecord) (k : StationId) : (s.setRecord g a p r).station k = s.station k := rfl
@[simp] theorem State.rule_setRecord_keep (g : GoalSlot) (a : Alliance) (p : Period) (r : TallyRecord) (k : RuleIx) : (s.setRecord g a p r).rule k = s.rule k := rfl
@[simp] theorem State.claim_setRecord_keep (g : GoalSlot) (a : Alliance) (p : Period) (r : TallyRecord) (k : Position) : (s.setRecord g a p r).claim k = s.claim k := rfl
@[simp] theorem State.balance_setRecord_keep (g : GoalSlot) (a : Alliance) (p : Period) (r : TallyRecord) (k : StationId) : (s.setRecord g a p r).balance k = s.balance k := rfl
@[simp] theorem State.area_setRecord_keep (g : GoalSlot) (a : Alliance) (p : Period) (r : TallyRecord) (k : AreaId) : (s.setRecord g a p r).area k = s.area k := rfl
@[simp] theorem State.node_setRecord_keep (g : GoalSlot) (a : Alliance) (p : Period) (r : TallyRecord) (k : Position) : (s.setRecord g a p r).node k = s.node k := rfl
@[simp] theorem State.tag_setRecord_keep (g : GoalSlot) (a : Alliance) (p : Period) (r : TallyRecord) (k : TagId) : (s.setRecord g a p r).tag k = s.tag k := rfl
@[simp] theorem State.side_setRecord_keep (g : GoalSlot) (a : Alliance) (p : Period) (r : TallyRecord) (k : ChainEnd) : (s.setRecord g a p r).side k = s.side k := by cases k <;> rfl
@[simp] theorem State.profile_setRecord_keep (g : GoalSlot) (a : Alliance) (p : Period) (r : TallyRecord) (k : Position) : (s.setRecord g a p r).profile k = s.profile k := rfl
@[simp] theorem State.goal_setRecord_keep (g : GoalSlot) (a : Alliance) (p : Period) (r : TallyRecord) (k : GoalSlot) : (s.setRecord g a p r).goal k = s.goal k := rfl
@[simp] theorem State.port_setSettle_keep (g : GoalSlot) (t : Option Nat) (w : Port) : (s.setSettle g t).port w = s.port w := by cases w <;> rfl
@[simp] theorem State.station_setSettle_keep (g : GoalSlot) (t : Option Nat) (k : StationId) : (s.setSettle g t).station k = s.station k := rfl
@[simp] theorem State.rule_setSettle_keep (g : GoalSlot) (t : Option Nat) (k : RuleIx) : (s.setSettle g t).rule k = s.rule k := rfl
@[simp] theorem State.claim_setSettle_keep (g : GoalSlot) (t : Option Nat) (k : Position) : (s.setSettle g t).claim k = s.claim k := rfl
@[simp] theorem State.balance_setSettle_keep (g : GoalSlot) (t : Option Nat) (k : StationId) : (s.setSettle g t).balance k = s.balance k := rfl
@[simp] theorem State.area_setSettle_keep (g : GoalSlot) (t : Option Nat) (k : AreaId) : (s.setSettle g t).area k = s.area k := rfl
@[simp] theorem State.node_setSettle_keep (g : GoalSlot) (t : Option Nat) (k : Position) : (s.setSettle g t).node k = s.node k := rfl
@[simp] theorem State.tag_setSettle_keep (g : GoalSlot) (t : Option Nat) (k : TagId) : (s.setSettle g t).tag k = s.tag k := rfl
@[simp] theorem State.side_setSettle_keep (g : GoalSlot) (t : Option Nat) (k : ChainEnd) : (s.setSettle g t).side k = s.side k := by cases k <;> rfl
@[simp] theorem State.profile_setSettle_keep (g : GoalSlot) (t : Option Nat) (k : Position) : (s.setSettle g t).profile k = s.profile k := rfl
@[simp] theorem State.goal_setSettle_keep (g : GoalSlot) (t : Option Nat) (k : GoalSlot) : (s.setSettle g t).goal k = s.goal k := rfl
@[simp] theorem State.record_setSettle_keep (g : GoalSlot) (t : Option Nat) (k : GoalSlot) (c : Alliance) (d : Period) : (s.setSettle g t).record k c d = s.record k c d := rfl
@[simp] theorem State.port_setControl_keep (x : PhaseControl) (w : Port) : (s.setControl x).port w = s.port w := by cases w <;> rfl
@[simp] theorem State.station_setControl_keep (x : PhaseControl) (k : StationId) : (s.setControl x).station k = s.station k := rfl
@[simp] theorem State.rule_setControl_keep (x : PhaseControl) (k : RuleIx) : (s.setControl x).rule k = s.rule k := rfl
@[simp] theorem State.claim_setControl_keep (x : PhaseControl) (k : Position) : (s.setControl x).claim k = s.claim k := rfl
@[simp] theorem State.balance_setControl_keep (x : PhaseControl) (k : StationId) : (s.setControl x).balance k = s.balance k := rfl
@[simp] theorem State.area_setControl_keep (x : PhaseControl) (k : AreaId) : (s.setControl x).area k = s.area k := rfl
@[simp] theorem State.node_setControl_keep (x : PhaseControl) (k : Position) : (s.setControl x).node k = s.node k := rfl
@[simp] theorem State.tag_setControl_keep (x : PhaseControl) (k : TagId) : (s.setControl x).tag k = s.tag k := rfl
@[simp] theorem State.side_setControl_keep (x : PhaseControl) (k : ChainEnd) : (s.setControl x).side k = s.side k := by cases k <;> rfl
@[simp] theorem State.profile_setControl_keep (x : PhaseControl) (k : Position) : (s.setControl x).profile k = s.profile k := rfl
@[simp] theorem State.goal_setControl_keep (x : PhaseControl) (k : GoalSlot) : (s.setControl x).goal k = s.goal k := rfl
@[simp] theorem State.record_setControl_keep (x : PhaseControl) (k : GoalSlot) (c : Alliance) (d : Period) : (s.setControl x).record k c d = s.record k c d := rfl

end Sys2Proof.Machine
end

