-- ==== Sys2Proof/Laws/Offers.lean ====
section
/-! SUPPORT. Everything that offering a frame can do, said once: each operation that composes and offers frames changes
output only (OutputOnly), and an offer that finds room stores its frame at the tail. -/

namespace Sys2Proof.Machine

namespace OutputOnly

theorem refl (s : State) : OutputOnly s s :=
  { stations := rfl, classifier := rfl, map := rfl, claims := rfl, credit := rfl, chain := rfl, control := rfl
    tally := rfl, pending := rfl, ml := rfl, radio := fun _ => rfl, counted := fun _ h => h
    layout := fun _ => ⟨rfl, rfl, rfl⟩, stored := fun _ => List.prefix_refl _, commands := fun _ _ => rfl, room := fun _ h => h
    peak := fun _ h => h, highest := fun _ _ => Nat.le_max_left _ _, drops := fun _ h => h, lost := id }

theorem trans {s t u : State} (h : OutputOnly s t) (k : OutputOnly t u) : OutputOnly s u :=
  { stations := k.stations.trans h.stations, classifier := k.classifier.trans h.classifier, map := k.map.trans h.map
    claims := k.claims.trans h.claims, credit := k.credit.trans h.credit, chain := k.chain.trans h.chain
    control := k.control.trans h.control, tally := k.tally.trans h.tally, pending := k.pending.trans h.pending
    ml := k.ml.trans h.ml
    radio := fun i => by rw [k.radio i, h.radio i]
    counted := fun i x => k.counted i (h.counted i x)
    layout := fun a => ⟨(k.layout a).1.trans (h.layout a).1, (k.layout a).2.1.trans (h.layout a).2.1,
      (k.layout a).2.2.trans (h.layout a).2.2⟩
    stored := fun a => (h.stored a).trans (k.stored a)
    commands := fun a x => by
      have y : (t.area a).servesConsumer .chain = true := by
        simpa [Area.servesConsumer, (h.layout a).2.2] using x
      rw [k.commands a y, h.commands a x]
    room := fun a x => k.room a (h.room a x)
    peak := fun a x => k.peak a (h.peak a x)
    highest := fun a x => by
      have first := h.highest a x
      have second := k.highest a (h.room a x)
      have same : (t.area a).capacity = (s.area a).capacity := by
        simp only [Area.capacity, (h.layout a).1, (h.layout a).2.1]
      omega
    drops := fun a x => k.drops a (h.drops a x)
    lost := fun x => k.lost (h.lost x) }

/-- A fold of operations that change output only changes output only. -/
theorem foldl {α : Type} {f : State → α → State} (h : ∀ s x, OutputOnly s (f s x)) (l : List α) (s : State) :
    OutputOnly s (l.foldl f s) := by
  induction l generalizing s with
  | nil => exact refl s
  | cons x l ih => exact (h s x).trans (ih (f s x))

/-- An area is replaced by one with the same layout and join, more frames at its tail, and counts in range. -/
theorem setArea (s : State) (a : AreaId) (x : Area)
    (hl : x.start = (s.area a).start ∧ x.stop = (s.area a).stop ∧ x.join = (s.area a).join)
    (hf : (s.area a).frames <+: x.frames)
    (hc : (s.area a).servesConsumer .chain = true → x.frames = (s.area a).frames)
    (hr : (s.area a).frames.length ≤ (s.area a).capacity → x.frames.length ≤ x.capacity)
    (hp : (s.area a).frames.length ≤ (s.area a).peak → x.frames.length ≤ x.peak)
    (hm : x.peak ≤ max (s.area a).peak (s.area a).capacity)
    (hd : (s.area a).drops ≤ Config.maxCount → x.drops ≤ Config.maxCount) : OutputOnly s (s.setArea a x) :=
  { refl s with
    layout := fun b => by
      rw [State.area_setArea]; split
      · next h => subst h; exact hl
      · exact ⟨rfl, rfl, rfl⟩
    stored := fun b => by
      rw [State.area_setArea]; split
      · next h => subst h; exact hf
      · exact List.prefix_refl _
    commands := fun b h => by
      rw [State.area_setArea]; split
      · next e => subst e; exact hc h
      · rfl
    room := fun b h => by
      rw [State.area_setArea]; split
      · next e => subst e; exact hr h
      · next e => exact h
    peak := fun b h => by
      rw [State.area_setArea]; split
      · next e => subst e; exact hp h
      · next e => exact h
    highest := fun b _ => by
      rw [State.area_setArea]; split
      · next e => subst e; exact hm
      · exact Nat.le_max_left _ _
    drops := fun b h => by
      rw [State.area_setArea]; split
      · next e => subst e; exact hd h
      · next e => exact h }

theorem setReportsLost (s : State) : OutputOnly s (s.setReportsLost true) :=
  { refl s with lost := fun _ => rfl }

theorem countDiscard (k : RadioPort) (s : State) : OutputOnly s (countDiscard (.rl k) s) :=
  { refl s with
    radio := fun i => by
      simp only [Machine.countDiscard, State.setPort, State.port, Table.get_set]
      split
      · next h => subst h; rfl
      · rfl
    counted := fun i h => by
      simp only [Machine.countDiscard, State.setPort, State.port, Table.get_set]
      split
      · exact Nat.min_le_left _ _
      · exact h }

end OutputOnly

/-! ### Stores and drops -/

theorem joinedArea_join {s : State} {c : Consumer} {l : Lane} {a : AreaId} (h : s.joinedArea c l = some a) :
    (s.area a).join = some { consumer := c, lane := l } := by
  simpa [State.area] using Table.find?_some h

/-- The area chosen for a consumer is joined to it (R120). -/
theorem chooseArea_serves {s : State} {c : Consumer} {l : Lane} {steer : Option AreaId} {a : AreaId}
    (h : s.chooseArea c l steer = some a) : (s.area a).servesConsumer c = true := by
  have key : ∀ l', s.joinedArea c l' = some a → (s.area a).servesConsumer c = true := fun l' e => by
    simp [Area.servesConsumer, joinedArea_join e]
  simp only [State.chooseArea] at h
  split at h
  · next x hx =>
    simp only [Option.filter_eq_some_iff, Bool.and_eq_true] at hx
    injection h with h; subst h; exact hx.2.2
  · split at h
    · next x hx => injection h with h; subst h; exact key _ hx
    · rcases Option.or_eq_some_iff.mp h with e | ⟨_, e⟩
      · exact key _ e
      · rcases Option.or_eq_some_iff.mp e with e | ⟨_, e⟩
        · exact key _ e
        · exact key _ e

/-- An area joined to a port is not joined to CHAIN. -/
theorem serves_port_chain {x : Area} {p : Port} (h : x.servesConsumer (.port p) = true) : x.servesConsumer .chain = false := by
  unfold Area.servesConsumer at *
  cases hj : x.join with
  | none => simp [hj] at h
  | some j => simp [hj] at h; simp [h]

theorem OutputOnly.store (s : State) (a : AreaId) (f : Frame) (h : (s.area a).full = false)
    (hc : (s.area a).servesConsumer .chain = false) : OutputOnly s (s.setArea a ((s.area a).store f)) := by
  apply OutputOnly.setArea
  · exact ⟨rfl, rfl, rfl⟩
  · exact List.prefix_append _ _
  · intro x; rw [hc] at x; cases x
  · intro _
    simp only [Area.full, decide_eq_false_iff_not, Nat.not_le] at h
    simp only [Area.store, Area.capacity, List.length_append, List.length_singleton]
    exact h
  · intro _
    simp only [Area.store, List.length_append, List.length_singleton]
    exact Nat.le_max_right _ _
  · simp only [Area.full, decide_eq_false_iff_not, Nat.not_le] at h
    simp only [Area.store]
    omega
  · exact id

theorem OutputOnly.countDrop (s : State) (a : AreaId) : OutputOnly s (s.setArea a (s.area a).countDrop) := by
  apply OutputOnly.setArea
  · exact ⟨rfl, rfl, rfl⟩
  · exact List.prefix_refl _
  · intro _; rfl
  · exact id
  · exact id
  · exact Nat.le_max_left _ _
  · intro _; exact Nat.min_le_left _ _

theorem OutputOnly.offerReportIn (k : Nat) (l : Lane) (f : Frame) (s : State) : OutputOnly s (offerReportIn k l f s) := by
  induction k generalizing l f s with
  | zero => exact .setReportsLost s
  | succ k ih =>
    simp only [Machine.offerReportIn]
    split
    · exact .setReportsLost s
    · next ha =>
      split
      · split
        · exact (OutputOnly.countDrop s _).trans (.setReportsLost _)
        · exact ((OutputOnly.countDrop s _).trans (.setReportsLost _)).trans (ih _ _ _)
      · next h => exact .store s _ f (by simpa using h) (serves_port_chain (chooseArea_serves ha))

theorem OutputOnly.offerReport (l : Lane) (f : Frame) (s : State) : OutputOnly s (offerReport l f s) :=
  .offerReportIn 3 l f s

theorem OutputOnly.dropAt (a : AreaId) (s : State) : OutputOnly s (dropAt a s) := by
  simp only [Machine.dropAt]
  split
  · exact .countDrop s a
  · exact (OutputOnly.countDrop s a).trans (.offerReport _ _ _)

theorem OutputOnly.offerRadio (k : RadioPort) (l : Lane) (steer : Option AreaId) (f : Frame) (s : State) :
    OutputOnly s (offerRadio k l steer f s) := by
  simp only [Machine.offerRadio]
  split
  · exact .countDiscard k s
  · next ha =>
    split
    · exact .dropAt _ s
    · next h => exact .store s _ f (by simpa using h) (serves_port_chain (chooseArea_serves ha))

theorem OutputOnly.notice (name : ReportName) (data : List Byte) (s : State) : OutputOnly s (notice name data s) :=
  .offerReport _ _ _

theorem OutputOnly.laterResult (name : ReportName) (tag : Byte) (data : List Byte) (s : State) :
    OutputOnly s (laterResult name tag data s) := .offerReport _ _ _

theorem OutputOnly.answerOn (k : RadioPort) (n : StationId) (a : Answer) (s : State) : OutputOnly s (answerOn k n a s) :=
  .offerRadio _ _ _ _ _

theorem OutputOnly.answer (n : StationId) (a : Answer) (s : State) : OutputOnly s (answer n a s) := by
  simp only [Machine.answer]
  split
  · exact .refl s
  · exact .answerOn _ _ _ _

theorem OutputOnly.arenaTo (x : ArenaNotice) (n : StationId) (s : State) : OutputOnly s (arenaTo x n s) := by
  simp only [Machine.arenaTo]
  split
  · exact .refl s
  · exact .offerRadio _ _ _ _ _

theorem OutputOnly.stationChange (n : StationId) (old new : StationState) (s : State) :
    OutputOnly s (stationChange n old new s) := .notice _ _ _

theorem OutputOnly.nodeChange (q : Position) (old new : NodeState) (e : ChainEnd) (s : State) :
    OutputOnly s (nodeChange q old new e s) := .notice _ _ _

theorem OutputOnly.answerJoin (k : RadioPort) (n : StationId) (code : AnswerCode) (sequence : Byte) (s : State) :
    OutputOnly s (answerJoin k n code sequence s) := .answerOn _ _ _ _

theorem OutputOnly.answerClaim (kind : Kind) (n : StationId) (f : FrameBody) (position : Byte) (code : AnswerCode)
    (extra : Nat) (s : State) : OutputOnly s (answerClaim kind n f position code extra s) := .answer _ _ _

theorem OutputOnly.refuseElement (n : StationId) (f : FrameBody) (position : Byte) (code : AnswerCode) (extra : Nat)
    (s : State) : OutputOnly s (refuseElement n f position code extra s) := .answer _ _ _

theorem OutputOnly.refuseFrame (code : AnswerCode) (n : StationId) (f : Frame) (s : State) :
    OutputOnly s (refuseFrame code n f s) := by
  simp only [Machine.refuseFrame]
  split
  all_goals first | exact .answer _ _ _ | exact .refl s

theorem OutputOnly.answerCleared (s : State) (f : Frame) : OutputOnly s (answerCleared s f) := by
  simp only [Machine.answerCleared]
  split
  · exact .answer _ _ _
  · exact .refl s

theorem OutputOnly.scoreNotice (a : Alliance) (s : State) : OutputOnly s (scoreNotice a s) := .notice _ _ _

theorem OutputOnly.denyFrame (k : RadioPort) (n : StationId) (f : Frame) (s : State) :
    OutputOnly s (denyFrame k n f s) := by
  simp only [Machine.denyFrame]
  split
  · exact .answerJoin _ _ _ _ _
  · exact .refuseFrame _ _ _ _

theorem OutputOnly.handleForward (n : StationId) (f : Frame) (steer : Option AreaId) (s : State) :
    OutputOnly s (handleForward n f steer s) := by
  simp only [Machine.handleForward]
  split
  · exact .refl s
  · exact .offerRadio _ _ _ _ _

theorem OutputOnly.announcePhase (s : State) : OutputOnly s (announcePhase s) := by
  simp only [Machine.announcePhase]
  exact (OutputOnly.foldl (fun s k => .offerRadio k _ _ _ s) _ s).trans (.notice _ _ _)

theorem OutputOnly.reply (code : Nat) (r : Request) (o : Owned) : OutputOnly o.state (reply code r o) := .offerReport _ _ _

/-! ### Reports touch no framer -/

@[simp] theorem offerReportIn_framers (k : Nat) (l : Lane) (f : Frame) (s : State) :
    (offerReportIn k l f s).framers = s.framers := by
  induction k generalizing l f s with
  | zero => rfl
  | succ k ih =>
    simp only [offerReportIn]
    split
    · rfl
    · split
      · split
        · rfl
        · rw [ih]; rfl
      · rfl

@[simp] theorem offerReport_framers (l : Lane) (f : Frame) (s : State) : (offerReport l f s).framers = s.framers :=
  offerReportIn_framers 3 l f s

@[simp] theorem reply_framers (code : Nat) (r : Request) (o : Owned) : (reply code r o).framers = o.state.framers :=
  offerReport_framers _ _ _

/-! ### An offer that finds room -/

/-- A report whose area has room is stored at its tail, and nothing else changes (R121). -/
theorem offerReport_stored {l : Lane} {f : Frame} {s : State} {a : AreaId} (h : s.chooseArea (.port .ml) l none = some a)
    (hf : (s.area a).full = false) : offerReport l f s = s.setArea a ((s.area a).store f) := by
  simp [offerReport, offerReportIn, h, hf]

/-- A frame for a radio port whose area has room is stored at its tail, and nothing else changes (R121). -/
theorem offerRadio_stored {k : RadioPort} {l : Lane} {steer : Option AreaId} {f : Frame} {s : State} {a : AreaId}
    (h : s.chooseArea (.port (.rl k)) l steer = some a) (hf : (s.area a).full = false) :
    offerRadio k l steer f s = s.setArea a ((s.area a).store f) := by
  simp [offerRadio, h, hf]

/-- A frame for a radio port that no area serves is dropped and counted at the port (R55, R120). -/
theorem offerRadio_unserved {k : RadioPort} {l : Lane} {steer : Option AreaId} {f : Frame} {s : State}
    (h : s.chooseArea (.port (.rl k)) l steer = none) : offerRadio k l steer f s = countDiscard (.rl k) s := by
  simp [offerRadio, h]

end Sys2Proof.Machine
end

