-- ==== Sys2Proof/Laws/Frames.lean ====
section
/-! SUPPORT. Which parts of the state each shared operation leaves alone: one lemma for each operation and part, in the
order the operations are defined, so that a later proof about a command cites them by simp. -/

namespace Sys2Proof.Machine

/-- A fold of operations that keep a part keeps it. -/
theorem foldl_keeps {α β : Type} (p : State → β) {f : State → α → State} (h : ∀ s x, p (f s x) = p s) (l : List α) (s : State) :
    p (l.foldl f s) = p s := by
  induction l generalizing s with
  | nil => rfl
  | cons x l ih => exact (ih (f s x)).trans (h s x)

variable (s : State)

/-! ### Offers -/

@[simp] theorem offerReport_stations (l : Lane) (f : Frame) : (offerReport l f s).stations = s.stations :=
  (OutputOnly.offerReport l f s).stations
@[simp] theorem offerReport_classifier (l : Lane) (f : Frame) : (offerReport l f s).classifier = s.classifier :=
  (OutputOnly.offerReport l f s).classifier
@[simp] theorem offerReport_map (l : Lane) (f : Frame) : (offerReport l f s).map = s.map :=
  (OutputOnly.offerReport l f s).map
@[simp] theorem offerReport_claims (l : Lane) (f : Frame) : (offerReport l f s).claims = s.claims :=
  (OutputOnly.offerReport l f s).claims
@[simp] theorem offerReport_credit (l : Lane) (f : Frame) : (offerReport l f s).credit = s.credit :=
  (OutputOnly.offerReport l f s).credit
@[simp] theorem offerReport_chain (l : Lane) (f : Frame) : (offerReport l f s).chain = s.chain :=
  (OutputOnly.offerReport l f s).chain
@[simp] theorem offerReport_control (l : Lane) (f : Frame) : (offerReport l f s).control = s.control :=
  (OutputOnly.offerReport l f s).control
@[simp] theorem offerReport_tally (l : Lane) (f : Frame) : (offerReport l f s).tally = s.tally :=
  (OutputOnly.offerReport l f s).tally
@[simp] theorem offerReport_pending (l : Lane) (f : Frame) : (offerReport l f s).pending = s.pending :=
  (OutputOnly.offerReport l f s).pending

@[simp] theorem dropAt_stations (a : AreaId) : (dropAt a s).stations = s.stations :=
  (OutputOnly.dropAt a s).stations
@[simp] theorem dropAt_classifier (a : AreaId) : (dropAt a s).classifier = s.classifier :=
  (OutputOnly.dropAt a s).classifier
@[simp] theorem dropAt_map (a : AreaId) : (dropAt a s).map = s.map :=
  (OutputOnly.dropAt a s).map
@[simp] theorem dropAt_claims (a : AreaId) : (dropAt a s).claims = s.claims :=
  (OutputOnly.dropAt a s).claims
@[simp] theorem dropAt_credit (a : AreaId) : (dropAt a s).credit = s.credit :=
  (OutputOnly.dropAt a s).credit
@[simp] theorem dropAt_chain (a : AreaId) : (dropAt a s).chain = s.chain :=
  (OutputOnly.dropAt a s).chain
@[simp] theorem dropAt_control (a : AreaId) : (dropAt a s).control = s.control :=
  (OutputOnly.dropAt a s).control
@[simp] theorem dropAt_tally (a : AreaId) : (dropAt a s).tally = s.tally :=
  (OutputOnly.dropAt a s).tally
@[simp] theorem dropAt_pending (a : AreaId) : (dropAt a s).pending = s.pending :=
  (OutputOnly.dropAt a s).pending

@[simp] theorem offerRadio_stations (k : RadioPort) (l : Lane) (steer : Option AreaId) (f : Frame) : (offerRadio k l steer f s).stations = s.stations :=
  (OutputOnly.offerRadio k l steer f s).stations
@[simp] theorem offerRadio_classifier (k : RadioPort) (l : Lane) (steer : Option AreaId) (f : Frame) : (offerRadio k l steer f s).classifier = s.classifier :=
  (OutputOnly.offerRadio k l steer f s).classifier
@[simp] theorem offerRadio_map (k : RadioPort) (l : Lane) (steer : Option AreaId) (f : Frame) : (offerRadio k l steer f s).map = s.map :=
  (OutputOnly.offerRadio k l steer f s).map
@[simp] theorem offerRadio_claims (k : RadioPort) (l : Lane) (steer : Option AreaId) (f : Frame) : (offerRadio k l steer f s).claims = s.claims :=
  (OutputOnly.offerRadio k l steer f s).claims
@[simp] theorem offerRadio_credit (k : RadioPort) (l : Lane) (steer : Option AreaId) (f : Frame) : (offerRadio k l steer f s).credit = s.credit :=
  (OutputOnly.offerRadio k l steer f s).credit
@[simp] theorem offerRadio_chain (k : RadioPort) (l : Lane) (steer : Option AreaId) (f : Frame) : (offerRadio k l steer f s).chain = s.chain :=
  (OutputOnly.offerRadio k l steer f s).chain
@[simp] theorem offerRadio_control (k : RadioPort) (l : Lane) (steer : Option AreaId) (f : Frame) : (offerRadio k l steer f s).control = s.control :=
  (OutputOnly.offerRadio k l steer f s).control
@[simp] theorem offerRadio_tally (k : RadioPort) (l : Lane) (steer : Option AreaId) (f : Frame) : (offerRadio k l steer f s).tally = s.tally :=
  (OutputOnly.offerRadio k l steer f s).tally
@[simp] theorem offerRadio_pending (k : RadioPort) (l : Lane) (steer : Option AreaId) (f : Frame) : (offerRadio k l steer f s).pending = s.pending :=
  (OutputOnly.offerRadio k l steer f s).pending

@[simp] theorem notice_stations (name : ReportName) (data : List Byte) : (notice name data s).stations = s.stations :=
  (OutputOnly.notice name data s).stations
@[simp] theorem notice_classifier (name : ReportName) (data : List Byte) : (notice name data s).classifier = s.classifier :=
  (OutputOnly.notice name data s).classifier
@[simp] theorem notice_map (name : ReportName) (data : List Byte) : (notice name data s).map = s.map :=
  (OutputOnly.notice name data s).map
@[simp] theorem notice_claims (name : ReportName) (data : List Byte) : (notice name data s).claims = s.claims :=
  (OutputOnly.notice name data s).claims
@[simp] theorem notice_credit (name : ReportName) (data : List Byte) : (notice name data s).credit = s.credit :=
  (OutputOnly.notice name data s).credit
@[simp] theorem notice_chain (name : ReportName) (data : List Byte) : (notice name data s).chain = s.chain :=
  (OutputOnly.notice name data s).chain
@[simp] theorem notice_control (name : ReportName) (data : List Byte) : (notice name data s).control = s.control :=
  (OutputOnly.notice name data s).control
@[simp] theorem notice_tally (name : ReportName) (data : List Byte) : (notice name data s).tally = s.tally :=
  (OutputOnly.notice name data s).tally
@[simp] theorem notice_pending (name : ReportName) (data : List Byte) : (notice name data s).pending = s.pending :=
  (OutputOnly.notice name data s).pending

@[simp] theorem laterResult_stations (name : ReportName) (tag : Byte) (data : List Byte) : (laterResult name tag data s).stations = s.stations :=
  (OutputOnly.laterResult name tag data s).stations
@[simp] theorem laterResult_classifier (name : ReportName) (tag : Byte) (data : List Byte) : (laterResult name tag data s).classifier = s.classifier :=
  (OutputOnly.laterResult name tag data s).classifier
@[simp] theorem laterResult_map (name : ReportName) (tag : Byte) (data : List Byte) : (laterResult name tag data s).map = s.map :=
  (OutputOnly.laterResult name tag data s).map
@[simp] theorem laterResult_claims (name : ReportName) (tag : Byte) (data : List Byte) : (laterResult name tag data s).claims = s.claims :=
  (OutputOnly.laterResult name tag data s).claims
@[simp] theorem laterResult_credit (name : ReportName) (tag : Byte) (data : List Byte) : (laterResult name tag data s).credit = s.credit :=
  (OutputOnly.laterResult name tag data s).credit
@[simp] theorem laterResult_chain (name : ReportName) (tag : Byte) (data : List Byte) : (laterResult name tag data s).chain = s.chain :=
  (OutputOnly.laterResult name tag data s).chain
@[simp] theorem laterResult_control (name : ReportName) (tag : Byte) (data : List Byte) : (laterResult name tag data s).control = s.control :=
  (OutputOnly.laterResult name tag data s).control
@[simp] theorem laterResult_tally (name : ReportName) (tag : Byte) (data : List Byte) : (laterResult name tag data s).tally = s.tally :=
  (OutputOnly.laterResult name tag data s).tally
@[simp] theorem laterResult_pending (name : ReportName) (tag : Byte) (data : List Byte) : (laterResult name tag data s).pending = s.pending :=
  (OutputOnly.laterResult name tag data s).pending

@[simp] theorem answerOn_stations (k : RadioPort) (n : StationId) (a : Answer) : (answerOn k n a s).stations = s.stations :=
  (OutputOnly.answerOn k n a s).stations
@[simp] theorem answerOn_classifier (k : RadioPort) (n : StationId) (a : Answer) : (answerOn k n a s).classifier = s.classifier :=
  (OutputOnly.answerOn k n a s).classifier
@[simp] theorem answerOn_map (k : RadioPort) (n : StationId) (a : Answer) : (answerOn k n a s).map = s.map :=
  (OutputOnly.answerOn k n a s).map
@[simp] theorem answerOn_claims (k : RadioPort) (n : StationId) (a : Answer) : (answerOn k n a s).claims = s.claims :=
  (OutputOnly.answerOn k n a s).claims
@[simp] theorem answerOn_credit (k : RadioPort) (n : StationId) (a : Answer) : (answerOn k n a s).credit = s.credit :=
  (OutputOnly.answerOn k n a s).credit
@[simp] theorem answerOn_chain (k : RadioPort) (n : StationId) (a : Answer) : (answerOn k n a s).chain = s.chain :=
  (OutputOnly.answerOn k n a s).chain
@[simp] theorem answerOn_control (k : RadioPort) (n : StationId) (a : Answer) : (answerOn k n a s).control = s.control :=
  (OutputOnly.answerOn k n a s).control
@[simp] theorem answerOn_tally (k : RadioPort) (n : StationId) (a : Answer) : (answerOn k n a s).tally = s.tally :=
  (OutputOnly.answerOn k n a s).tally
@[simp] theorem answerOn_pending (k : RadioPort) (n : StationId) (a : Answer) : (answerOn k n a s).pending = s.pending :=
  (OutputOnly.answerOn k n a s).pending

@[simp] theorem answer_stations (n : StationId) (a : Answer) : (answer n a s).stations = s.stations :=
  (OutputOnly.answer n a s).stations
@[simp] theorem answer_classifier (n : StationId) (a : Answer) : (answer n a s).classifier = s.classifier :=
  (OutputOnly.answer n a s).classifier
@[simp] theorem answer_map (n : StationId) (a : Answer) : (answer n a s).map = s.map :=
  (OutputOnly.answer n a s).map
@[simp] theorem answer_claims (n : StationId) (a : Answer) : (answer n a s).claims = s.claims :=
  (OutputOnly.answer n a s).claims
@[simp] theorem answer_credit (n : StationId) (a : Answer) : (answer n a s).credit = s.credit :=
  (OutputOnly.answer n a s).credit
@[simp] theorem answer_chain (n : StationId) (a : Answer) : (answer n a s).chain = s.chain :=
  (OutputOnly.answer n a s).chain
@[simp] theorem answer_control (n : StationId) (a : Answer) : (answer n a s).control = s.control :=
  (OutputOnly.answer n a s).control
@[simp] theorem answer_tally (n : StationId) (a : Answer) : (answer n a s).tally = s.tally :=
  (OutputOnly.answer n a s).tally
@[simp] theorem answer_pending (n : StationId) (a : Answer) : (answer n a s).pending = s.pending :=
  (OutputOnly.answer n a s).pending

@[simp] theorem arenaTo_stations (x : ArenaNotice) (n : StationId) : (arenaTo x n s).stations = s.stations :=
  (OutputOnly.arenaTo x n s).stations
@[simp] theorem arenaTo_classifier (x : ArenaNotice) (n : StationId) : (arenaTo x n s).classifier = s.classifier :=
  (OutputOnly.arenaTo x n s).classifier
@[simp] theorem arenaTo_map (x : ArenaNotice) (n : StationId) : (arenaTo x n s).map = s.map :=
  (OutputOnly.arenaTo x n s).map
@[simp] theorem arenaTo_claims (x : ArenaNotice) (n : StationId) : (arenaTo x n s).claims = s.claims :=
  (OutputOnly.arenaTo x n s).claims
@[simp] theorem arenaTo_credit (x : ArenaNotice) (n : StationId) : (arenaTo x n s).credit = s.credit :=
  (OutputOnly.arenaTo x n s).credit
@[simp] theorem arenaTo_chain (x : ArenaNotice) (n : StationId) : (arenaTo x n s).chain = s.chain :=
  (OutputOnly.arenaTo x n s).chain
@[simp] theorem arenaTo_control (x : ArenaNotice) (n : StationId) : (arenaTo x n s).control = s.control :=
  (OutputOnly.arenaTo x n s).control
@[simp] theorem arenaTo_tally (x : ArenaNotice) (n : StationId) : (arenaTo x n s).tally = s.tally :=
  (OutputOnly.arenaTo x n s).tally
@[simp] theorem arenaTo_pending (x : ArenaNotice) (n : StationId) : (arenaTo x n s).pending = s.pending :=
  (OutputOnly.arenaTo x n s).pending

@[simp] theorem stationChange_stations (n : StationId) (old new : StationState) : (stationChange n old new s).stations = s.stations :=
  (OutputOnly.stationChange n old new s).stations
@[simp] theorem stationChange_classifier (n : StationId) (old new : StationState) : (stationChange n old new s).classifier = s.classifier :=
  (OutputOnly.stationChange n old new s).classifier
@[simp] theorem stationChange_map (n : StationId) (old new : StationState) : (stationChange n old new s).map = s.map :=
  (OutputOnly.stationChange n old new s).map
@[simp] theorem stationChange_claims (n : StationId) (old new : StationState) : (stationChange n old new s).claims = s.claims :=
  (OutputOnly.stationChange n old new s).claims
@[simp] theorem stationChange_credit (n : StationId) (old new : StationState) : (stationChange n old new s).credit = s.credit :=
  (OutputOnly.stationChange n old new s).credit
@[simp] theorem stationChange_chain (n : StationId) (old new : StationState) : (stationChange n old new s).chain = s.chain :=
  (OutputOnly.stationChange n old new s).chain
@[simp] theorem stationChange_control (n : StationId) (old new : StationState) : (stationChange n old new s).control = s.control :=
  (OutputOnly.stationChange n old new s).control
@[simp] theorem stationChange_tally (n : StationId) (old new : StationState) : (stationChange n old new s).tally = s.tally :=
  (OutputOnly.stationChange n old new s).tally
@[simp] theorem stationChange_pending (n : StationId) (old new : StationState) : (stationChange n old new s).pending = s.pending :=
  (OutputOnly.stationChange n old new s).pending

@[simp] theorem nodeChange_stations (q : Position) (old new : NodeState) (e : ChainEnd) : (nodeChange q old new e s).stations = s.stations :=
  (OutputOnly.nodeChange q old new e s).stations
@[simp] theorem nodeChange_classifier (q : Position) (old new : NodeState) (e : ChainEnd) : (nodeChange q old new e s).classifier = s.classifier :=
  (OutputOnly.nodeChange q old new e s).classifier
@[simp] theorem nodeChange_map (q : Position) (old new : NodeState) (e : ChainEnd) : (nodeChange q old new e s).map = s.map :=
  (OutputOnly.nodeChange q old new e s).map
@[simp] theorem nodeChange_claims (q : Position) (old new : NodeState) (e : ChainEnd) : (nodeChange q old new e s).claims = s.claims :=
  (OutputOnly.nodeChange q old new e s).claims
@[simp] theorem nodeChange_credit (q : Position) (old new : NodeState) (e : ChainEnd) : (nodeChange q old new e s).credit = s.credit :=
  (OutputOnly.nodeChange q old new e s).credit
@[simp] theorem nodeChange_chain (q : Position) (old new : NodeState) (e : ChainEnd) : (nodeChange q old new e s).chain = s.chain :=
  (OutputOnly.nodeChange q old new e s).chain
@[simp] theorem nodeChange_control (q : Position) (old new : NodeState) (e : ChainEnd) : (nodeChange q old new e s).control = s.control :=
  (OutputOnly.nodeChange q old new e s).control
@[simp] theorem nodeChange_tally (q : Position) (old new : NodeState) (e : ChainEnd) : (nodeChange q old new e s).tally = s.tally :=
  (OutputOnly.nodeChange q old new e s).tally
@[simp] theorem nodeChange_pending (q : Position) (old new : NodeState) (e : ChainEnd) : (nodeChange q old new e s).pending = s.pending :=
  (OutputOnly.nodeChange q old new e s).pending

@[simp] theorem answerJoin_stations (k : RadioPort) (n : StationId) (code : AnswerCode) (sequence : Byte) : (answerJoin k n code sequence s).stations = s.stations :=
  (OutputOnly.answerJoin k n code sequence s).stations
@[simp] theorem answerJoin_classifier (k : RadioPort) (n : StationId) (code : AnswerCode) (sequence : Byte) : (answerJoin k n code sequence s).classifier = s.classifier :=
  (OutputOnly.answerJoin k n code sequence s).classifier
@[simp] theorem answerJoin_map (k : RadioPort) (n : StationId) (code : AnswerCode) (sequence : Byte) : (answerJoin k n code sequence s).map = s.map :=
  (OutputOnly.answerJoin k n code sequence s).map
@[simp] theorem answerJoin_claims (k : RadioPort) (n : StationId) (code : AnswerCode) (sequence : Byte) : (answerJoin k n code sequence s).claims = s.claims :=
  (OutputOnly.answerJoin k n code sequence s).claims
@[simp] theorem answerJoin_credit (k : RadioPort) (n : StationId) (code : AnswerCode) (sequence : Byte) : (answerJoin k n code sequence s).credit = s.credit :=
  (OutputOnly.answerJoin k n code sequence s).credit
@[simp] theorem answerJoin_chain (k : RadioPort) (n : StationId) (code : AnswerCode) (sequence : Byte) : (answerJoin k n code sequence s).chain = s.chain :=
  (OutputOnly.answerJoin k n code sequence s).chain
@[simp] theorem answerJoin_control (k : RadioPort) (n : StationId) (code : AnswerCode) (sequence : Byte) : (answerJoin k n code sequence s).control = s.control :=
  (OutputOnly.answerJoin k n code sequence s).control
@[simp] theorem answerJoin_tally (k : RadioPort) (n : StationId) (code : AnswerCode) (sequence : Byte) : (answerJoin k n code sequence s).tally = s.tally :=
  (OutputOnly.answerJoin k n code sequence s).tally
@[simp] theorem answerJoin_pending (k : RadioPort) (n : StationId) (code : AnswerCode) (sequence : Byte) : (answerJoin k n code sequence s).pending = s.pending :=
  (OutputOnly.answerJoin k n code sequence s).pending

@[simp] theorem answerClaim_stations (kind : Kind) (n : StationId) (f : FrameBody) (position : Byte) (code : AnswerCode) (extra : Nat) : (answerClaim kind n f position code extra s).stations = s.stations :=
  (OutputOnly.answerClaim kind n f position code extra s).stations
@[simp] theorem answerClaim_classifier (kind : Kind) (n : StationId) (f : FrameBody) (position : Byte) (code : AnswerCode) (extra : Nat) : (answerClaim kind n f position code extra s).classifier = s.classifier :=
  (OutputOnly.answerClaim kind n f position code extra s).classifier
@[simp] theorem answerClaim_map (kind : Kind) (n : StationId) (f : FrameBody) (position : Byte) (code : AnswerCode) (extra : Nat) : (answerClaim kind n f position code extra s).map = s.map :=
  (OutputOnly.answerClaim kind n f position code extra s).map
@[simp] theorem answerClaim_claims (kind : Kind) (n : StationId) (f : FrameBody) (position : Byte) (code : AnswerCode) (extra : Nat) : (answerClaim kind n f position code extra s).claims = s.claims :=
  (OutputOnly.answerClaim kind n f position code extra s).claims
@[simp] theorem answerClaim_credit (kind : Kind) (n : StationId) (f : FrameBody) (position : Byte) (code : AnswerCode) (extra : Nat) : (answerClaim kind n f position code extra s).credit = s.credit :=
  (OutputOnly.answerClaim kind n f position code extra s).credit
@[simp] theorem answerClaim_chain (kind : Kind) (n : StationId) (f : FrameBody) (position : Byte) (code : AnswerCode) (extra : Nat) : (answerClaim kind n f position code extra s).chain = s.chain :=
  (OutputOnly.answerClaim kind n f position code extra s).chain
@[simp] theorem answerClaim_control (kind : Kind) (n : StationId) (f : FrameBody) (position : Byte) (code : AnswerCode) (extra : Nat) : (answerClaim kind n f position code extra s).control = s.control :=
  (OutputOnly.answerClaim kind n f position code extra s).control
@[simp] theorem answerClaim_tally (kind : Kind) (n : StationId) (f : FrameBody) (position : Byte) (code : AnswerCode) (extra : Nat) : (answerClaim kind n f position code extra s).tally = s.tally :=
  (OutputOnly.answerClaim kind n f position code extra s).tally
@[simp] theorem answerClaim_pending (kind : Kind) (n : StationId) (f : FrameBody) (position : Byte) (code : AnswerCode) (extra : Nat) : (answerClaim kind n f position code extra s).pending = s.pending :=
  (OutputOnly.answerClaim kind n f position code extra s).pending

@[simp] theorem refuseElement_stations (n : StationId) (f : FrameBody) (position : Byte) (code : AnswerCode) (extra : Nat) : (refuseElement n f position code extra s).stations = s.stations :=
  (OutputOnly.refuseElement n f position code extra s).stations
@[simp] theorem refuseElement_classifier (n : StationId) (f : FrameBody) (position : Byte) (code : AnswerCode) (extra : Nat) : (refuseElement n f position code extra s).classifier = s.classifier :=
  (OutputOnly.refuseElement n f position code extra s).classifier
@[simp] theorem refuseElement_map (n : StationId) (f : FrameBody) (position : Byte) (code : AnswerCode) (extra : Nat) : (refuseElement n f position code extra s).map = s.map :=
  (OutputOnly.refuseElement n f position code extra s).map
@[simp] theorem refuseElement_claims (n : StationId) (f : FrameBody) (position : Byte) (code : AnswerCode) (extra : Nat) : (refuseElement n f position code extra s).claims = s.claims :=
  (OutputOnly.refuseElement n f position code extra s).claims
@[simp] theorem refuseElement_credit (n : StationId) (f : FrameBody) (position : Byte) (code : AnswerCode) (extra : Nat) : (refuseElement n f position code extra s).credit = s.credit :=
  (OutputOnly.refuseElement n f position code extra s).credit
@[simp] theorem refuseElement_chain (n : StationId) (f : FrameBody) (position : Byte) (code : AnswerCode) (extra : Nat) : (refuseElement n f position code extra s).chain = s.chain :=
  (OutputOnly.refuseElement n f position code extra s).chain
@[simp] theorem refuseElement_control (n : StationId) (f : FrameBody) (position : Byte) (code : AnswerCode) (extra : Nat) : (refuseElement n f position code extra s).control = s.control :=
  (OutputOnly.refuseElement n f position code extra s).control
@[simp] theorem refuseElement_tally (n : StationId) (f : FrameBody) (position : Byte) (code : AnswerCode) (extra : Nat) : (refuseElement n f position code extra s).tally = s.tally :=
  (OutputOnly.refuseElement n f position code extra s).tally
@[simp] theorem refuseElement_pending (n : StationId) (f : FrameBody) (position : Byte) (code : AnswerCode) (extra : Nat) : (refuseElement n f position code extra s).pending = s.pending :=
  (OutputOnly.refuseElement n f position code extra s).pending

@[simp] theorem refuseFrame_stations (code : AnswerCode) (n : StationId) (f : Frame) : (refuseFrame code n f s).stations = s.stations :=
  (OutputOnly.refuseFrame code n f s).stations
@[simp] theorem refuseFrame_classifier (code : AnswerCode) (n : StationId) (f : Frame) : (refuseFrame code n f s).classifier = s.classifier :=
  (OutputOnly.refuseFrame code n f s).classifier
@[simp] theorem refuseFrame_map (code : AnswerCode) (n : StationId) (f : Frame) : (refuseFrame code n f s).map = s.map :=
  (OutputOnly.refuseFrame code n f s).map
@[simp] theorem refuseFrame_claims (code : AnswerCode) (n : StationId) (f : Frame) : (refuseFrame code n f s).claims = s.claims :=
  (OutputOnly.refuseFrame code n f s).claims
@[simp] theorem refuseFrame_credit (code : AnswerCode) (n : StationId) (f : Frame) : (refuseFrame code n f s).credit = s.credit :=
  (OutputOnly.refuseFrame code n f s).credit
@[simp] theorem refuseFrame_chain (code : AnswerCode) (n : StationId) (f : Frame) : (refuseFrame code n f s).chain = s.chain :=
  (OutputOnly.refuseFrame code n f s).chain
@[simp] theorem refuseFrame_control (code : AnswerCode) (n : StationId) (f : Frame) : (refuseFrame code n f s).control = s.control :=
  (OutputOnly.refuseFrame code n f s).control
@[simp] theorem refuseFrame_tally (code : AnswerCode) (n : StationId) (f : Frame) : (refuseFrame code n f s).tally = s.tally :=
  (OutputOnly.refuseFrame code n f s).tally
@[simp] theorem refuseFrame_pending (code : AnswerCode) (n : StationId) (f : Frame) : (refuseFrame code n f s).pending = s.pending :=
  (OutputOnly.refuseFrame code n f s).pending

@[simp] theorem answerCleared_stations (f : Frame) : (answerCleared s f).stations = s.stations :=
  (OutputOnly.answerCleared s f).stations
@[simp] theorem answerCleared_classifier (f : Frame) : (answerCleared s f).classifier = s.classifier :=
  (OutputOnly.answerCleared s f).classifier
@[simp] theorem answerCleared_map (f : Frame) : (answerCleared s f).map = s.map :=
  (OutputOnly.answerCleared s f).map
@[simp] theorem answerCleared_claims (f : Frame) : (answerCleared s f).claims = s.claims :=
  (OutputOnly.answerCleared s f).claims
@[simp] theorem answerCleared_credit (f : Frame) : (answerCleared s f).credit = s.credit :=
  (OutputOnly.answerCleared s f).credit
@[simp] theorem answerCleared_chain (f : Frame) : (answerCleared s f).chain = s.chain :=
  (OutputOnly.answerCleared s f).chain
@[simp] theorem answerCleared_control (f : Frame) : (answerCleared s f).control = s.control :=
  (OutputOnly.answerCleared s f).control
@[simp] theorem answerCleared_tally (f : Frame) : (answerCleared s f).tally = s.tally :=
  (OutputOnly.answerCleared s f).tally
@[simp] theorem answerCleared_pending (f : Frame) : (answerCleared s f).pending = s.pending :=
  (OutputOnly.answerCleared s f).pending

@[simp] theorem scoreNotice_stations (a : Alliance) : (scoreNotice a s).stations = s.stations :=
  (OutputOnly.scoreNotice a s).stations
@[simp] theorem scoreNotice_classifier (a : Alliance) : (scoreNotice a s).classifier = s.classifier :=
  (OutputOnly.scoreNotice a s).classifier
@[simp] theorem scoreNotice_map (a : Alliance) : (scoreNotice a s).map = s.map :=
  (OutputOnly.scoreNotice a s).map
@[simp] theorem scoreNotice_claims (a : Alliance) : (scoreNotice a s).claims = s.claims :=
  (OutputOnly.scoreNotice a s).claims
@[simp] theorem scoreNotice_credit (a : Alliance) : (scoreNotice a s).credit = s.credit :=
  (OutputOnly.scoreNotice a s).credit
@[simp] theorem scoreNotice_chain (a : Alliance) : (scoreNotice a s).chain = s.chain :=
  (OutputOnly.scoreNotice a s).chain
@[simp] theorem scoreNotice_control (a : Alliance) : (scoreNotice a s).control = s.control :=
  (OutputOnly.scoreNotice a s).control
@[simp] theorem scoreNotice_tally (a : Alliance) : (scoreNotice a s).tally = s.tally :=
  (OutputOnly.scoreNotice a s).tally
@[simp] theorem scoreNotice_pending (a : Alliance) : (scoreNotice a s).pending = s.pending :=
  (OutputOnly.scoreNotice a s).pending

@[simp] theorem denyFrame_stations (k : RadioPort) (n : StationId) (f : Frame) : (denyFrame k n f s).stations = s.stations :=
  (OutputOnly.denyFrame k n f s).stations
@[simp] theorem denyFrame_classifier (k : RadioPort) (n : StationId) (f : Frame) : (denyFrame k n f s).classifier = s.classifier :=
  (OutputOnly.denyFrame k n f s).classifier
@[simp] theorem denyFrame_map (k : RadioPort) (n : StationId) (f : Frame) : (denyFrame k n f s).map = s.map :=
  (OutputOnly.denyFrame k n f s).map
@[simp] theorem denyFrame_claims (k : RadioPort) (n : StationId) (f : Frame) : (denyFrame k n f s).claims = s.claims :=
  (OutputOnly.denyFrame k n f s).claims
@[simp] theorem denyFrame_credit (k : RadioPort) (n : StationId) (f : Frame) : (denyFrame k n f s).credit = s.credit :=
  (OutputOnly.denyFrame k n f s).credit
@[simp] theorem denyFrame_chain (k : RadioPort) (n : StationId) (f : Frame) : (denyFrame k n f s).chain = s.chain :=
  (OutputOnly.denyFrame k n f s).chain
@[simp] theorem denyFrame_control (k : RadioPort) (n : StationId) (f : Frame) : (denyFrame k n f s).control = s.control :=
  (OutputOnly.denyFrame k n f s).control
@[simp] theorem denyFrame_tally (k : RadioPort) (n : StationId) (f : Frame) : (denyFrame k n f s).tally = s.tally :=
  (OutputOnly.denyFrame k n f s).tally
@[simp] theorem denyFrame_pending (k : RadioPort) (n : StationId) (f : Frame) : (denyFrame k n f s).pending = s.pending :=
  (OutputOnly.denyFrame k n f s).pending

@[simp] theorem handleForward_stations (n : StationId) (f : Frame) (steer : Option AreaId) : (handleForward n f steer s).stations = s.stations :=
  (OutputOnly.handleForward n f steer s).stations
@[simp] theorem handleForward_classifier (n : StationId) (f : Frame) (steer : Option AreaId) : (handleForward n f steer s).classifier = s.classifier :=
  (OutputOnly.handleForward n f steer s).classifier
@[simp] theorem handleForward_map (n : StationId) (f : Frame) (steer : Option AreaId) : (handleForward n f steer s).map = s.map :=
  (OutputOnly.handleForward n f steer s).map
@[simp] theorem handleForward_claims (n : StationId) (f : Frame) (steer : Option AreaId) : (handleForward n f steer s).claims = s.claims :=
  (OutputOnly.handleForward n f steer s).claims
@[simp] theorem handleForward_credit (n : StationId) (f : Frame) (steer : Option AreaId) : (handleForward n f steer s).credit = s.credit :=
  (OutputOnly.handleForward n f steer s).credit
@[simp] theorem handleForward_chain (n : StationId) (f : Frame) (steer : Option AreaId) : (handleForward n f steer s).chain = s.chain :=
  (OutputOnly.handleForward n f steer s).chain
@[simp] theorem handleForward_control (n : StationId) (f : Frame) (steer : Option AreaId) : (handleForward n f steer s).control = s.control :=
  (OutputOnly.handleForward n f steer s).control
@[simp] theorem handleForward_tally (n : StationId) (f : Frame) (steer : Option AreaId) : (handleForward n f steer s).tally = s.tally :=
  (OutputOnly.handleForward n f steer s).tally
@[simp] theorem handleForward_pending (n : StationId) (f : Frame) (steer : Option AreaId) : (handleForward n f steer s).pending = s.pending :=
  (OutputOnly.handleForward n f steer s).pending

@[simp] theorem announcePhase_stations : (announcePhase s).stations = s.stations :=
  (OutputOnly.announcePhase s).stations
@[simp] theorem announcePhase_classifier : (announcePhase s).classifier = s.classifier :=
  (OutputOnly.announcePhase s).classifier
@[simp] theorem announcePhase_map : (announcePhase s).map = s.map :=
  (OutputOnly.announcePhase s).map
@[simp] theorem announcePhase_claims : (announcePhase s).claims = s.claims :=
  (OutputOnly.announcePhase s).claims
@[simp] theorem announcePhase_credit : (announcePhase s).credit = s.credit :=
  (OutputOnly.announcePhase s).credit
@[simp] theorem announcePhase_chain : (announcePhase s).chain = s.chain :=
  (OutputOnly.announcePhase s).chain
@[simp] theorem announcePhase_control : (announcePhase s).control = s.control :=
  (OutputOnly.announcePhase s).control
@[simp] theorem announcePhase_tally : (announcePhase s).tally = s.tally :=
  (OutputOnly.announcePhase s).tally
@[simp] theorem announcePhase_pending : (announcePhase s).pending = s.pending :=
  (OutputOnly.announcePhase s).pending

@[simp] theorem reply_stations (code : Nat) (r : Request) (o : Owned) : (reply code r o).stations = o.state.stations :=
  (OutputOnly.reply code r o).stations
@[simp] theorem reply_classifier (code : Nat) (r : Request) (o : Owned) : (reply code r o).classifier = o.state.classifier :=
  (OutputOnly.reply code r o).classifier
@[simp] theorem reply_map (code : Nat) (r : Request) (o : Owned) : (reply code r o).map = o.state.map :=
  (OutputOnly.reply code r o).map
@[simp] theorem reply_claims (code : Nat) (r : Request) (o : Owned) : (reply code r o).claims = o.state.claims :=
  (OutputOnly.reply code r o).claims
@[simp] theorem reply_credit (code : Nat) (r : Request) (o : Owned) : (reply code r o).credit = o.state.credit :=
  (OutputOnly.reply code r o).credit
@[simp] theorem reply_chain (code : Nat) (r : Request) (o : Owned) : (reply code r o).chain = o.state.chain :=
  (OutputOnly.reply code r o).chain
@[simp] theorem reply_control (code : Nat) (r : Request) (o : Owned) : (reply code r o).control = o.state.control :=
  (OutputOnly.reply code r o).control
@[simp] theorem reply_tally (code : Nat) (r : Request) (o : Owned) : (reply code r o).tally = o.state.tally :=
  (OutputOnly.reply code r o).tally
@[simp] theorem reply_pending (code : Nat) (r : Request) (o : Owned) : (reply code r o).pending = o.state.pending :=
  (OutputOnly.reply code r o).pending

/-! ### Framers and areas -/

@[simp] theorem countDiscard_stations (p : Port) : (countDiscard p s).stations = s.stations := by simp [countDiscard]
@[simp] theorem countDiscard_classifier (p : Port) : (countDiscard p s).classifier = s.classifier :=
  by simp [countDiscard]
@[simp] theorem countDiscard_map (p : Port) : (countDiscard p s).map = s.map := by simp [countDiscard]
@[simp] theorem countDiscard_claims (p : Port) : (countDiscard p s).claims = s.claims := by simp [countDiscard]
@[simp] theorem countDiscard_credit (p : Port) : (countDiscard p s).credit = s.credit := by simp [countDiscard]
@[simp] theorem countDiscard_chain (p : Port) : (countDiscard p s).chain = s.chain := by simp [countDiscard]
@[simp] theorem countDiscard_control (p : Port) : (countDiscard p s).control = s.control := by simp [countDiscard]
@[simp] theorem countDiscard_tally (p : Port) : (countDiscard p s).tally = s.tally := by simp [countDiscard]
@[simp] theorem countDiscard_pending (p : Port) : (countDiscard p s).pending = s.pending := by simp [countDiscard]
@[simp] theorem countDiscard_areas (p : Port) : (countDiscard p s).areas = s.areas := by simp [countDiscard]
@[simp] theorem countDiscard_reportsLost (p : Port) : (countDiscard p s).reportsLost = s.reportsLost :=
  by simp [countDiscard]

@[simp] theorem receiveIdle_stations (p : Port) : (receiveIdle p s).stations = s.stations := by simp [receiveIdle]
@[simp] theorem receiveIdle_classifier (p : Port) : (receiveIdle p s).classifier = s.classifier :=
  by simp [receiveIdle]
@[simp] theorem receiveIdle_map (p : Port) : (receiveIdle p s).map = s.map := by simp [receiveIdle]
@[simp] theorem receiveIdle_claims (p : Port) : (receiveIdle p s).claims = s.claims := by simp [receiveIdle]
@[simp] theorem receiveIdle_credit (p : Port) : (receiveIdle p s).credit = s.credit := by simp [receiveIdle]
@[simp] theorem receiveIdle_chain (p : Port) : (receiveIdle p s).chain = s.chain := by simp [receiveIdle]
@[simp] theorem receiveIdle_control (p : Port) : (receiveIdle p s).control = s.control := by simp [receiveIdle]
@[simp] theorem receiveIdle_tally (p : Port) : (receiveIdle p s).tally = s.tally := by simp [receiveIdle]
@[simp] theorem receiveIdle_pending (p : Port) : (receiveIdle p s).pending = s.pending := by simp [receiveIdle]
@[simp] theorem receiveIdle_areas (p : Port) : (receiveIdle p s).areas = s.areas := by simp [receiveIdle]
@[simp] theorem receiveIdle_reportsLost (p : Port) : (receiveIdle p s).reportsLost = s.reportsLost :=
  by simp [receiveIdle]

@[simp] theorem discardArrival_stations (p : Port) : (discardArrival p s).stations = s.stations :=
  by simp [discardArrival]
@[simp] theorem discardArrival_classifier (p : Port) : (discardArrival p s).classifier = s.classifier :=
  by simp [discardArrival]
@[simp] theorem discardArrival_map (p : Port) : (discardArrival p s).map = s.map := by simp [discardArrival]
@[simp] theorem discardArrival_claims (p : Port) : (discardArrival p s).claims = s.claims := by simp [discardArrival]
@[simp] theorem discardArrival_credit (p : Port) : (discardArrival p s).credit = s.credit := by simp [discardArrival]
@[simp] theorem discardArrival_chain (p : Port) : (discardArrival p s).chain = s.chain := by simp [discardArrival]
@[simp] theorem discardArrival_control (p : Port) : (discardArrival p s).control = s.control :=
  by simp [discardArrival]
@[simp] theorem discardArrival_tally (p : Port) : (discardArrival p s).tally = s.tally := by simp [discardArrival]
@[simp] theorem discardArrival_pending (p : Port) : (discardArrival p s).pending = s.pending :=
  by simp [discardArrival]
@[simp] theorem discardArrival_areas (p : Port) : (discardArrival p s).areas = s.areas := by simp [discardArrival]
@[simp] theorem discardArrival_reportsLost (p : Port) : (discardArrival p s).reportsLost = s.reportsLost :=
  by simp [discardArrival]

@[simp] theorem resetPort_stations (p : Port) : (resetPort p s).stations = s.stations := by simp [resetPort]
@[simp] theorem resetPort_classifier (p : Port) : (resetPort p s).classifier = s.classifier := by simp [resetPort]
@[simp] theorem resetPort_map (p : Port) : (resetPort p s).map = s.map := by simp [resetPort]
@[simp] theorem resetPort_claims (p : Port) : (resetPort p s).claims = s.claims := by simp [resetPort]
@[simp] theorem resetPort_credit (p : Port) : (resetPort p s).credit = s.credit := by simp [resetPort]
@[simp] theorem resetPort_chain (p : Port) : (resetPort p s).chain = s.chain := by simp [resetPort]
@[simp] theorem resetPort_control (p : Port) : (resetPort p s).control = s.control := by simp [resetPort]
@[simp] theorem resetPort_tally (p : Port) : (resetPort p s).tally = s.tally := by simp [resetPort]
@[simp] theorem resetPort_pending (p : Port) : (resetPort p s).pending = s.pending := by simp [resetPort]
@[simp] theorem resetPort_areas (p : Port) : (resetPort p s).areas = s.areas := by simp [resetPort]
@[simp] theorem resetPort_reportsLost (p : Port) : (resetPort p s).reportsLost = s.reportsLost := by simp [resetPort]

@[simp] theorem popFrame_stations (a : AreaId) : (popFrame a s).stations = s.stations := rfl
@[simp] theorem popFrame_classifier (a : AreaId) : (popFrame a s).classifier = s.classifier := rfl
@[simp] theorem popFrame_map (a : AreaId) : (popFrame a s).map = s.map := rfl
@[simp] theorem popFrame_claims (a : AreaId) : (popFrame a s).claims = s.claims := rfl
@[simp] theorem popFrame_credit (a : AreaId) : (popFrame a s).credit = s.credit := rfl
@[simp] theorem popFrame_chain (a : AreaId) : (popFrame a s).chain = s.chain := rfl
@[simp] theorem popFrame_control (a : AreaId) : (popFrame a s).control = s.control := rfl
@[simp] theorem popFrame_tally (a : AreaId) : (popFrame a s).tally = s.tally := rfl
@[simp] theorem popFrame_pending (a : AreaId) : (popFrame a s).pending = s.pending := rfl
@[simp] theorem popFrame_framers (a : AreaId) : (popFrame a s).framers = s.framers := rfl
@[simp] theorem popFrame_reportsLost (a : AreaId) : (popFrame a s).reportsLost = s.reportsLost := rfl

@[simp] theorem purgePilot_stations  : (purgePilot s).stations = s.stations := rfl
@[simp] theorem purgePilot_classifier  : (purgePilot s).classifier = s.classifier := rfl
@[simp] theorem purgePilot_map  : (purgePilot s).map = s.map := rfl
@[simp] theorem purgePilot_claims  : (purgePilot s).claims = s.claims := rfl
@[simp] theorem purgePilot_credit  : (purgePilot s).credit = s.credit := rfl
@[simp] theorem purgePilot_chain  : (purgePilot s).chain = s.chain := rfl
@[simp] theorem purgePilot_control  : (purgePilot s).control = s.control := rfl
@[simp] theorem purgePilot_tally  : (purgePilot s).tally = s.tally := rfl
@[simp] theorem purgePilot_pending  : (purgePilot s).pending = s.pending := rfl
@[simp] theorem purgePilot_framers  : (purgePilot s).framers = s.framers := rfl
@[simp] theorem purgePilot_reportsLost  : (purgePilot s).reportsLost = s.reportsLost := rfl

@[simp] theorem emptyStations_stations  : (emptyStations s).stations = s.stations := rfl
@[simp] theorem emptyStations_classifier  : (emptyStations s).classifier = s.classifier := rfl
@[simp] theorem emptyStations_map  : (emptyStations s).map = s.map := rfl
@[simp] theorem emptyStations_claims  : (emptyStations s).claims = s.claims := rfl
@[simp] theorem emptyStations_credit  : (emptyStations s).credit = s.credit := rfl
@[simp] theorem emptyStations_chain  : (emptyStations s).chain = s.chain := rfl
@[simp] theorem emptyStations_control  : (emptyStations s).control = s.control := rfl
@[simp] theorem emptyStations_tally  : (emptyStations s).tally = s.tally := rfl
@[simp] theorem emptyStations_pending  : (emptyStations s).pending = s.pending := rfl
@[simp] theorem emptyStations_framers  : (emptyStations s).framers = s.framers := rfl
@[simp] theorem emptyStations_reportsLost  : (emptyStations s).reportsLost = s.reportsLost := rfl

@[simp] theorem purgeCommands_stations (n : StationId) : (purgeCommands n s).stations = s.stations := rfl
@[simp] theorem purgeCommands_classifier (n : StationId) : (purgeCommands n s).classifier = s.classifier := rfl
@[simp] theorem purgeCommands_map (n : StationId) : (purgeCommands n s).map = s.map := rfl
@[simp] theorem purgeCommands_claims (n : StationId) : (purgeCommands n s).claims = s.claims := rfl
@[simp] theorem purgeCommands_credit (n : StationId) : (purgeCommands n s).credit = s.credit := rfl
@[simp] theorem purgeCommands_chain (n : StationId) : (purgeCommands n s).chain = s.chain := rfl
@[simp] theorem purgeCommands_control (n : StationId) : (purgeCommands n s).control = s.control := rfl
@[simp] theorem purgeCommands_tally (n : StationId) : (purgeCommands n s).tally = s.tally := rfl
@[simp] theorem purgeCommands_pending (n : StationId) : (purgeCommands n s).pending = s.pending := rfl
@[simp] theorem purgeCommands_framers (n : StationId) : (purgeCommands n s).framers = s.framers := rfl
@[simp] theorem purgeCommands_reportsLost (n : StationId) : (purgeCommands n s).reportsLost = s.reportsLost := rfl

@[simp] theorem takeFrame_stations (p : Port) : (takeFrame p s).stations = s.stations :=
  by simp only [takeFrame]; (repeat' split) <;> simp
@[simp] theorem takeFrame_classifier (p : Port) : (takeFrame p s).classifier = s.classifier :=
  by simp only [takeFrame]; (repeat' split) <;> simp
@[simp] theorem takeFrame_map (p : Port) : (takeFrame p s).map = s.map :=
  by simp only [takeFrame]; (repeat' split) <;> simp
@[simp] theorem takeFrame_claims (p : Port) : (takeFrame p s).claims = s.claims :=
  by simp only [takeFrame]; (repeat' split) <;> simp
@[simp] theorem takeFrame_credit (p : Port) : (takeFrame p s).credit = s.credit :=
  by simp only [takeFrame]; (repeat' split) <;> simp
@[simp] theorem takeFrame_chain (p : Port) : (takeFrame p s).chain = s.chain :=
  by simp only [takeFrame]; (repeat' split) <;> simp
@[simp] theorem takeFrame_control (p : Port) : (takeFrame p s).control = s.control :=
  by simp only [takeFrame]; (repeat' split) <;> simp
@[simp] theorem takeFrame_tally (p : Port) : (takeFrame p s).tally = s.tally :=
  by simp only [takeFrame]; (repeat' split) <;> simp
@[simp] theorem takeFrame_pending (p : Port) : (takeFrame p s).pending = s.pending :=
  by simp only [takeFrame]; (repeat' split) <;> simp
@[simp] theorem takeFrame_reportsLost (p : Port) : (takeFrame p s).reportsLost = s.reportsLost :=
  by simp only [takeFrame]; (repeat' split) <;> simp

/-! ### Stations and the hold interlock -/

@[simp] theorem restartQuiet_classifier (n : StationId) : (restartQuiet n s).classifier = s.classifier := rfl
@[simp] theorem restartQuiet_map (n : StationId) : (restartQuiet n s).map = s.map := rfl
@[simp] theorem restartQuiet_claims (n : StationId) : (restartQuiet n s).claims = s.claims := rfl
@[simp] theorem restartQuiet_credit (n : StationId) : (restartQuiet n s).credit = s.credit := rfl
@[simp] theorem restartQuiet_chain (n : StationId) : (restartQuiet n s).chain = s.chain := rfl
@[simp] theorem restartQuiet_control (n : StationId) : (restartQuiet n s).control = s.control := rfl
@[simp] theorem restartQuiet_tally (n : StationId) : (restartQuiet n s).tally = s.tally := rfl
@[simp] theorem restartQuiet_pending (n : StationId) : (restartQuiet n s).pending = s.pending := rfl
@[simp] theorem restartQuiet_framers (n : StationId) : (restartQuiet n s).framers = s.framers := rfl
@[simp] theorem restartQuiet_areas (n : StationId) : (restartQuiet n s).areas = s.areas := rfl
@[simp] theorem restartQuiet_reportsLost (n : StationId) : (restartQuiet n s).reportsLost = s.reportsLost := rfl

@[simp] theorem linkRecord_classifier (n : StationId) (k : RadioPort) : (linkRecord n k s).classifier = s.classifier :=
  rfl
@[simp] theorem linkRecord_map (n : StationId) (k : RadioPort) : (linkRecord n k s).map = s.map := rfl
@[simp] theorem linkRecord_claims (n : StationId) (k : RadioPort) : (linkRecord n k s).claims = s.claims := rfl
@[simp] theorem linkRecord_credit (n : StationId) (k : RadioPort) : (linkRecord n k s).credit = s.credit := rfl
@[simp] theorem linkRecord_chain (n : StationId) (k : RadioPort) : (linkRecord n k s).chain = s.chain := rfl
@[simp] theorem linkRecord_control (n : StationId) (k : RadioPort) : (linkRecord n k s).control = s.control := rfl
@[simp] theorem linkRecord_tally (n : StationId) (k : RadioPort) : (linkRecord n k s).tally = s.tally := rfl
@[simp] theorem linkRecord_pending (n : StationId) (k : RadioPort) : (linkRecord n k s).pending = s.pending := rfl
@[simp] theorem linkRecord_framers (n : StationId) (k : RadioPort) : (linkRecord n k s).framers = s.framers := rfl
@[simp] theorem linkRecord_areas (n : StationId) (k : RadioPort) : (linkRecord n k s).areas = s.areas := rfl
@[simp] theorem linkRecord_reportsLost (n : StationId) (k : RadioPort) : (linkRecord n k s).reportsLost = s.reportsLost :=
  rfl

@[simp] theorem clearHeld_classifier  : (clearHeld s).classifier = s.classifier := rfl
@[simp] theorem clearHeld_map  : (clearHeld s).map = s.map := rfl
@[simp] theorem clearHeld_claims  : (clearHeld s).claims = s.claims := rfl
@[simp] theorem clearHeld_credit  : (clearHeld s).credit = s.credit := rfl
@[simp] theorem clearHeld_chain  : (clearHeld s).chain = s.chain := rfl
@[simp] theorem clearHeld_control  : (clearHeld s).control = s.control := rfl
@[simp] theorem clearHeld_tally  : (clearHeld s).tally = s.tally := rfl
@[simp] theorem clearHeld_pending  : (clearHeld s).pending = s.pending := rfl
@[simp] theorem clearHeld_framers  : (clearHeld s).framers = s.framers := rfl
@[simp] theorem clearHeld_areas  : (clearHeld s).areas = s.areas := rfl
@[simp] theorem clearHeld_reportsLost  : (clearHeld s).reportsLost = s.reportsLost := rfl

@[simp] theorem roam_classifier (k : RadioPort) (n : StationId) : (roam k n s).classifier = s.classifier :=
  by simp only [roam]; (repeat' split) <;> simp
@[simp] theorem roam_map (k : RadioPort) (n : StationId) : (roam k n s).map = s.map :=
  by simp only [roam]; (repeat' split) <;> simp
@[simp] theorem roam_claims (k : RadioPort) (n : StationId) : (roam k n s).claims = s.claims :=
  by simp only [roam]; (repeat' split) <;> simp
@[simp] theorem roam_credit (k : RadioPort) (n : StationId) : (roam k n s).credit = s.credit :=
  by simp only [roam]; (repeat' split) <;> simp
@[simp] theorem roam_chain (k : RadioPort) (n : StationId) : (roam k n s).chain = s.chain :=
  by simp only [roam]; (repeat' split) <;> simp
@[simp] theorem roam_control (k : RadioPort) (n : StationId) : (roam k n s).control = s.control :=
  by simp only [roam]; (repeat' split) <;> simp
@[simp] theorem roam_tally (k : RadioPort) (n : StationId) : (roam k n s).tally = s.tally :=
  by simp only [roam]; (repeat' split) <;> simp
@[simp] theorem roam_pending (k : RadioPort) (n : StationId) : (roam k n s).pending = s.pending :=
  by simp only [roam]; (repeat' split) <;> simp
@[simp] theorem roam_framers (k : RadioPort) (n : StationId) : (roam k n s).framers = s.framers :=
  by simp only [roam]; (repeat' split) <;> simp
@[simp] theorem roam_areas (k : RadioPort) (n : StationId) : (roam k n s).areas = s.areas :=
  by simp only [roam]; (repeat' split) <;> simp
@[simp] theorem roam_reportsLost (k : RadioPort) (n : StationId) : (roam k n s).reportsLost = s.reportsLost :=
  by simp only [roam]; (repeat' split) <;> simp

@[simp] theorem evaluateHold_classifier (n : StationId) : (evaluateHold s n).classifier = s.classifier :=
  by simp only [evaluateHold]; (repeat' split) <;> simp
@[simp] theorem evaluateHold_map (n : StationId) : (evaluateHold s n).map = s.map :=
  by simp only [evaluateHold]; (repeat' split) <;> simp
@[simp] theorem evaluateHold_claims (n : StationId) : (evaluateHold s n).claims = s.claims :=
  by simp only [evaluateHold]; (repeat' split) <;> simp
@[simp] theorem evaluateHold_credit (n : StationId) : (evaluateHold s n).credit = s.credit :=
  by simp only [evaluateHold]; (repeat' split) <;> simp
@[simp] theorem evaluateHold_chain (n : StationId) : (evaluateHold s n).chain = s.chain :=
  by simp only [evaluateHold]; (repeat' split) <;> simp
@[simp] theorem evaluateHold_control (n : StationId) : (evaluateHold s n).control = s.control :=
  by simp only [evaluateHold]; (repeat' split) <;> simp
@[simp] theorem evaluateHold_tally (n : StationId) : (evaluateHold s n).tally = s.tally :=
  by simp only [evaluateHold]; (repeat' split) <;> simp
@[simp] theorem evaluateHold_pending (n : StationId) : (evaluateHold s n).pending = s.pending :=
  by simp only [evaluateHold]; (repeat' split) <;> simp

@[simp] theorem evaluatePartners_classifier (m : StationId) : (evaluatePartners m s).classifier = s.classifier :=
  by
  unfold evaluatePartners; exact foldl_keeps (fun s => s.classifier) (fun s x => by split <;> simp) _ _
@[simp] theorem evaluatePartners_map (m : StationId) : (evaluatePartners m s).map = s.map :=
  by
  unfold evaluatePartners; exact foldl_keeps (fun s => s.map) (fun s x => by split <;> simp) _ _
@[simp] theorem evaluatePartners_claims (m : StationId) : (evaluatePartners m s).claims = s.claims :=
  by
  unfold evaluatePartners; exact foldl_keeps (fun s => s.claims) (fun s x => by split <;> simp) _ _
@[simp] theorem evaluatePartners_credit (m : StationId) : (evaluatePartners m s).credit = s.credit :=
  by
  unfold evaluatePartners; exact foldl_keeps (fun s => s.credit) (fun s x => by split <;> simp) _ _
@[simp] theorem evaluatePartners_chain (m : StationId) : (evaluatePartners m s).chain = s.chain :=
  by
  unfold evaluatePartners; exact foldl_keeps (fun s => s.chain) (fun s x => by split <;> simp) _ _
@[simp] theorem evaluatePartners_control (m : StationId) : (evaluatePartners m s).control = s.control :=
  by
  unfold evaluatePartners; exact foldl_keeps (fun s => s.control) (fun s x => by split <;> simp) _ _
@[simp] theorem evaluatePartners_tally (m : StationId) : (evaluatePartners m s).tally = s.tally :=
  by
  unfold evaluatePartners; exact foldl_keeps (fun s => s.tally) (fun s x => by split <;> simp) _ _
@[simp] theorem evaluatePartners_pending (m : StationId) : (evaluatePartners m s).pending = s.pending :=
  by
  unfold evaluatePartners; exact foldl_keeps (fun s => s.pending) (fun s x => by split <;> simp) _ _

@[simp] theorem evaluateAll_classifier  : (evaluateAll s).classifier = s.classifier :=
  foldl_keeps (fun s => s.classifier) (fun s x => by simp) _ _
@[simp] theorem evaluateAll_map  : (evaluateAll s).map = s.map :=
  foldl_keeps (fun s => s.map) (fun s x => by simp) _ _
@[simp] theorem evaluateAll_claims  : (evaluateAll s).claims = s.claims :=
  foldl_keeps (fun s => s.claims) (fun s x => by simp) _ _
@[simp] theorem evaluateAll_credit  : (evaluateAll s).credit = s.credit :=
  foldl_keeps (fun s => s.credit) (fun s x => by simp) _ _
@[simp] theorem evaluateAll_chain  : (evaluateAll s).chain = s.chain :=
  foldl_keeps (fun s => s.chain) (fun s x => by simp) _ _
@[simp] theorem evaluateAll_control  : (evaluateAll s).control = s.control :=
  foldl_keeps (fun s => s.control) (fun s x => by simp) _ _
@[simp] theorem evaluateAll_tally  : (evaluateAll s).tally = s.tally :=
  foldl_keeps (fun s => s.tally) (fun s x => by simp) _ _
@[simp] theorem evaluateAll_pending  : (evaluateAll s).pending = s.pending :=
  foldl_keeps (fun s => s.pending) (fun s x => by simp) _ _

@[simp] theorem holdEntry_classifier (new : Phase) : (holdEntry new s).classifier = s.classifier :=
  by simp only [holdEntry]; (repeat' split) <;> simp
@[simp] theorem holdEntry_map (new : Phase) : (holdEntry new s).map = s.map :=
  by simp only [holdEntry]; (repeat' split) <;> simp
@[simp] theorem holdEntry_claims (new : Phase) : (holdEntry new s).claims = s.claims :=
  by simp only [holdEntry]; (repeat' split) <;> simp
@[simp] theorem holdEntry_credit (new : Phase) : (holdEntry new s).credit = s.credit :=
  by simp only [holdEntry]; (repeat' split) <;> simp
@[simp] theorem holdEntry_chain (new : Phase) : (holdEntry new s).chain = s.chain :=
  by simp only [holdEntry]; (repeat' split) <;> simp
@[simp] theorem holdEntry_control (new : Phase) : (holdEntry new s).control = s.control :=
  by simp only [holdEntry]; (repeat' split) <;> simp
@[simp] theorem holdEntry_tally (new : Phase) : (holdEntry new s).tally = s.tally :=
  by simp only [holdEntry]; (repeat' split) <;> simp
@[simp] theorem holdEntry_pending (new : Phase) : (holdEntry new s).pending = s.pending :=
  by simp only [holdEntry]; (repeat' split) <;> simp

@[simp] theorem afterLink_classifier (n : StationId) (old : StationState) : (afterLink n old s).classifier = s.classifier :=
  by simp only [afterLink]; (repeat' split) <;> simp
@[simp] theorem afterLink_map (n : StationId) (old : StationState) : (afterLink n old s).map = s.map :=
  by simp only [afterLink]; (repeat' split) <;> simp
@[simp] theorem afterLink_claims (n : StationId) (old : StationState) : (afterLink n old s).claims = s.claims :=
  by simp only [afterLink]; (repeat' split) <;> simp
@[simp] theorem afterLink_credit (n : StationId) (old : StationState) : (afterLink n old s).credit = s.credit :=
  by simp only [afterLink]; (repeat' split) <;> simp
@[simp] theorem afterLink_chain (n : StationId) (old : StationState) : (afterLink n old s).chain = s.chain :=
  by simp only [afterLink]; (repeat' split) <;> simp
@[simp] theorem afterLink_control (n : StationId) (old : StationState) : (afterLink n old s).control = s.control :=
  by simp only [afterLink]; (repeat' split) <;> simp
@[simp] theorem afterLink_tally (n : StationId) (old : StationState) : (afterLink n old s).tally = s.tally :=
  by simp only [afterLink]; (repeat' split) <;> simp
@[simp] theorem afterLink_pending (n : StationId) (old : StationState) : (afterLink n old s).pending = s.pending :=
  by simp only [afterLink]; (repeat' split) <;> simp

@[simp] theorem handleJoin_classifier (k : RadioPort) (n : StationId) (f : FrameBody) : (handleJoin k n f s).classifier = s.classifier :=
  by simp only [handleJoin]; (repeat' split) <;> simp
@[simp] theorem handleJoin_map (k : RadioPort) (n : StationId) (f : FrameBody) : (handleJoin k n f s).map = s.map :=
  by simp only [handleJoin]; (repeat' split) <;> simp
@[simp] theorem handleJoin_claims (k : RadioPort) (n : StationId) (f : FrameBody) : (handleJoin k n f s).claims = s.claims :=
  by simp only [handleJoin]; (repeat' split) <;> simp
@[simp] theorem handleJoin_credit (k : RadioPort) (n : StationId) (f : FrameBody) : (handleJoin k n f s).credit = s.credit :=
  by simp only [handleJoin]; (repeat' split) <;> simp
@[simp] theorem handleJoin_chain (k : RadioPort) (n : StationId) (f : FrameBody) : (handleJoin k n f s).chain = s.chain :=
  by simp only [handleJoin]; (repeat' split) <;> simp
@[simp] theorem handleJoin_control (k : RadioPort) (n : StationId) (f : FrameBody) : (handleJoin k n f s).control = s.control :=
  by simp only [handleJoin]; (repeat' split) <;> simp
@[simp] theorem handleJoin_tally (k : RadioPort) (n : StationId) (f : FrameBody) : (handleJoin k n f s).tally = s.tally :=
  by simp only [handleJoin]; (repeat' split) <;> simp
@[simp] theorem handleJoin_pending (k : RadioPort) (n : StationId) (f : FrameBody) : (handleJoin k n f s).pending = s.pending :=
  by simp only [handleJoin]; (repeat' split) <;> simp

@[simp] theorem handleBeacon_classifier (k : RadioPort) (n : StationId) : (handleBeacon k n s).classifier = s.classifier :=
  by simp only [handleBeacon]; (repeat' split) <;> simp
@[simp] theorem handleBeacon_map (k : RadioPort) (n : StationId) : (handleBeacon k n s).map = s.map :=
  by simp only [handleBeacon]; (repeat' split) <;> simp
@[simp] theorem handleBeacon_claims (k : RadioPort) (n : StationId) : (handleBeacon k n s).claims = s.claims :=
  by simp only [handleBeacon]; (repeat' split) <;> simp
@[simp] theorem handleBeacon_credit (k : RadioPort) (n : StationId) : (handleBeacon k n s).credit = s.credit :=
  by simp only [handleBeacon]; (repeat' split) <;> simp
@[simp] theorem handleBeacon_chain (k : RadioPort) (n : StationId) : (handleBeacon k n s).chain = s.chain :=
  by simp only [handleBeacon]; (repeat' split) <;> simp
@[simp] theorem handleBeacon_control (k : RadioPort) (n : StationId) : (handleBeacon k n s).control = s.control :=
  by simp only [handleBeacon]; (repeat' split) <;> simp
@[simp] theorem handleBeacon_tally (k : RadioPort) (n : StationId) : (handleBeacon k n s).tally = s.tally :=
  by simp only [handleBeacon]; (repeat' split) <;> simp
@[simp] theorem handleBeacon_pending (k : RadioPort) (n : StationId) : (handleBeacon k n s).pending = s.pending :=
  by simp only [handleBeacon]; (repeat' split) <;> simp

@[simp] theorem enrol_classifier (n : StationId) (kind : StationKind) (a : Alliance) (team : Nat) (partner : Option StationId) : (enrol n kind a team partner s).classifier = s.classifier :=
  by simp only [enrol]; (repeat' split) <;> simp
@[simp] theorem enrol_map (n : StationId) (kind : StationKind) (a : Alliance) (team : Nat) (partner : Option StationId) : (enrol n kind a team partner s).map = s.map :=
  by simp only [enrol]; (repeat' split) <;> simp
@[simp] theorem enrol_claims (n : StationId) (kind : StationKind) (a : Alliance) (team : Nat) (partner : Option StationId) : (enrol n kind a team partner s).claims = s.claims :=
  by simp only [enrol]; (repeat' split) <;> simp
@[simp] theorem enrol_credit (n : StationId) (kind : StationKind) (a : Alliance) (team : Nat) (partner : Option StationId) : (enrol n kind a team partner s).credit = s.credit :=
  by simp only [enrol]; (repeat' split) <;> simp
@[simp] theorem enrol_chain (n : StationId) (kind : StationKind) (a : Alliance) (team : Nat) (partner : Option StationId) : (enrol n kind a team partner s).chain = s.chain :=
  by simp only [enrol]; (repeat' split) <;> simp
@[simp] theorem enrol_control (n : StationId) (kind : StationKind) (a : Alliance) (team : Nat) (partner : Option StationId) : (enrol n kind a team partner s).control = s.control :=
  by simp only [enrol]; (repeat' split) <;> simp
@[simp] theorem enrol_tally (n : StationId) (kind : StationKind) (a : Alliance) (team : Nat) (partner : Option StationId) : (enrol n kind a team partner s).tally = s.tally :=
  by simp only [enrol]; (repeat' split) <;> simp
@[simp] theorem enrol_pending (n : StationId) (kind : StationKind) (a : Alliance) (team : Nat) (partner : Option StationId) : (enrol n kind a team partner s).pending = s.pending :=
  by simp only [enrol]; (repeat' split) <;> simp

/-! ### Claims -/

@[simp] theorem handOver_stations (q : Position) : (handOver q s).stations = s.stations :=
  by simp only [handOver]; (repeat' split) <;> simp
@[simp] theorem handOver_classifier (q : Position) : (handOver q s).classifier = s.classifier :=
  by simp only [handOver]; (repeat' split) <;> simp
@[simp] theorem handOver_map (q : Position) : (handOver q s).map = s.map :=
  by simp only [handOver]; (repeat' split) <;> simp
@[simp] theorem handOver_credit (q : Position) : (handOver q s).credit = s.credit :=
  by simp only [handOver]; (repeat' split) <;> simp
@[simp] theorem handOver_chain (q : Position) : (handOver q s).chain = s.chain :=
  by simp only [handOver]; (repeat' split) <;> simp
@[simp] theorem handOver_control (q : Position) : (handOver q s).control = s.control :=
  by simp only [handOver]; (repeat' split) <;> simp
@[simp] theorem handOver_tally (q : Position) : (handOver q s).tally = s.tally :=
  by simp only [handOver]; (repeat' split) <;> simp
@[simp] theorem handOver_pending (q : Position) : (handOver q s).pending = s.pending :=
  by simp only [handOver]; (repeat' split) <;> simp

@[simp] theorem removeWaits_stations (n : StationId) : (removeWaits n s).stations = s.stations := rfl
@[simp] theorem removeWaits_classifier (n : StationId) : (removeWaits n s).classifier = s.classifier := rfl
@[simp] theorem removeWaits_map (n : StationId) : (removeWaits n s).map = s.map := rfl
@[simp] theorem removeWaits_credit (n : StationId) : (removeWaits n s).credit = s.credit := rfl
@[simp] theorem removeWaits_chain (n : StationId) : (removeWaits n s).chain = s.chain := rfl
@[simp] theorem removeWaits_control (n : StationId) : (removeWaits n s).control = s.control := rfl
@[simp] theorem removeWaits_tally (n : StationId) : (removeWaits n s).tally = s.tally := rfl
@[simp] theorem removeWaits_pending (n : StationId) : (removeWaits n s).pending = s.pending := rfl
@[simp] theorem removeWaits_framers (n : StationId) : (removeWaits n s).framers = s.framers := rfl
@[simp] theorem removeWaits_areas (n : StationId) : (removeWaits n s).areas = s.areas := rfl
@[simp] theorem removeWaits_reportsLost (n : StationId) : (removeWaits n s).reportsLost = s.reportsLost := rfl

@[simp] theorem clearClaims_stations  : (clearClaims s).stations = s.stations := rfl
@[simp] theorem clearClaims_classifier  : (clearClaims s).classifier = s.classifier := rfl
@[simp] theorem clearClaims_map  : (clearClaims s).map = s.map := rfl
@[simp] theorem clearClaims_credit  : (clearClaims s).credit = s.credit := rfl
@[simp] theorem clearClaims_chain  : (clearClaims s).chain = s.chain := rfl
@[simp] theorem clearClaims_control  : (clearClaims s).control = s.control := rfl
@[simp] theorem clearClaims_tally  : (clearClaims s).tally = s.tally := rfl
@[simp] theorem clearClaims_pending  : (clearClaims s).pending = s.pending := rfl
@[simp] theorem clearClaims_framers  : (clearClaims s).framers = s.framers := rfl
@[simp] theorem clearClaims_areas  : (clearClaims s).areas = s.areas := rfl
@[simp] theorem clearClaims_reportsLost  : (clearClaims s).reportsLost = s.reportsLost := rfl

@[simp] theorem removeHold_stations (n : StationId) (q : Position) : (removeHold n s q).stations = s.stations :=
  by simp only [removeHold]; (repeat' split) <;> simp
@[simp] theorem removeHold_classifier (n : StationId) (q : Position) : (removeHold n s q).classifier = s.classifier :=
  by simp only [removeHold]; (repeat' split) <;> simp
@[simp] theorem removeHold_map (n : StationId) (q : Position) : (removeHold n s q).map = s.map :=
  by simp only [removeHold]; (repeat' split) <;> simp
@[simp] theorem removeHold_credit (n : StationId) (q : Position) : (removeHold n s q).credit = s.credit :=
  by simp only [removeHold]; (repeat' split) <;> simp
@[simp] theorem removeHold_chain (n : StationId) (q : Position) : (removeHold n s q).chain = s.chain :=
  by simp only [removeHold]; (repeat' split) <;> simp
@[simp] theorem removeHold_control (n : StationId) (q : Position) : (removeHold n s q).control = s.control :=
  by simp only [removeHold]; (repeat' split) <;> simp
@[simp] theorem removeHold_tally (n : StationId) (q : Position) : (removeHold n s q).tally = s.tally :=
  by simp only [removeHold]; (repeat' split) <;> simp
@[simp] theorem removeHold_pending (n : StationId) (q : Position) : (removeHold n s q).pending = s.pending :=
  by simp only [removeHold]; (repeat' split) <;> simp

@[simp] theorem removeClaims_stations (n : StationId) : (removeClaims n s).stations = s.stations :=
  foldl_keeps (fun s => s.stations) (fun s x => by simp) _ _
@[simp] theorem removeClaims_classifier (n : StationId) : (removeClaims n s).classifier = s.classifier :=
  foldl_keeps (fun s => s.classifier) (fun s x => by simp) _ _
@[simp] theorem removeClaims_map (n : StationId) : (removeClaims n s).map = s.map :=
  foldl_keeps (fun s => s.map) (fun s x => by simp) _ _
@[simp] theorem removeClaims_credit (n : StationId) : (removeClaims n s).credit = s.credit :=
  foldl_keeps (fun s => s.credit) (fun s x => by simp) _ _
@[simp] theorem removeClaims_chain (n : StationId) : (removeClaims n s).chain = s.chain :=
  foldl_keeps (fun s => s.chain) (fun s x => by simp) _ _
@[simp] theorem removeClaims_control (n : StationId) : (removeClaims n s).control = s.control :=
  foldl_keeps (fun s => s.control) (fun s x => by simp) _ _
@[simp] theorem removeClaims_tally (n : StationId) : (removeClaims n s).tally = s.tally :=
  foldl_keeps (fun s => s.tally) (fun s x => by simp) _ _
@[simp] theorem removeClaims_pending (n : StationId) : (removeClaims n s).pending = s.pending :=
  foldl_keeps (fun s => s.pending) (fun s x => by simp) _ _

@[simp] theorem judgeClaim_stations (n : StationId) (f : FrameBody) (q : Position) : (judgeClaim n f q s).stations = s.stations :=
  by simp only [judgeClaim]; (repeat' split) <;> simp
@[simp] theorem judgeClaim_classifier (n : StationId) (f : FrameBody) (q : Position) : (judgeClaim n f q s).classifier = s.classifier :=
  by simp only [judgeClaim]; (repeat' split) <;> simp
@[simp] theorem judgeClaim_map (n : StationId) (f : FrameBody) (q : Position) : (judgeClaim n f q s).map = s.map :=
  by simp only [judgeClaim]; (repeat' split) <;> simp
@[simp] theorem judgeClaim_credit (n : StationId) (f : FrameBody) (q : Position) : (judgeClaim n f q s).credit = s.credit :=
  by simp only [judgeClaim]; (repeat' split) <;> simp
@[simp] theorem judgeClaim_chain (n : StationId) (f : FrameBody) (q : Position) : (judgeClaim n f q s).chain = s.chain :=
  by simp only [judgeClaim]; (repeat' split) <;> simp
@[simp] theorem judgeClaim_control (n : StationId) (f : FrameBody) (q : Position) : (judgeClaim n f q s).control = s.control :=
  by simp only [judgeClaim]; (repeat' split) <;> simp
@[simp] theorem judgeClaim_tally (n : StationId) (f : FrameBody) (q : Position) : (judgeClaim n f q s).tally = s.tally :=
  by simp only [judgeClaim]; (repeat' split) <;> simp
@[simp] theorem judgeClaim_pending (n : StationId) (f : FrameBody) (q : Position) : (judgeClaim n f q s).pending = s.pending :=
  by simp only [judgeClaim]; (repeat' split) <;> simp

@[simp] theorem handleClaim_stations (n : StationId) (f : FrameBody) : (handleClaim n f s).stations = s.stations :=
  by simp only [handleClaim]; (repeat' split) <;> simp
@[simp] theorem handleClaim_classifier (n : StationId) (f : FrameBody) : (handleClaim n f s).classifier = s.classifier :=
  by simp only [handleClaim]; (repeat' split) <;> simp
@[simp] theorem handleClaim_map (n : StationId) (f : FrameBody) : (handleClaim n f s).map = s.map :=
  by simp only [handleClaim]; (repeat' split) <;> simp
@[simp] theorem handleClaim_credit (n : StationId) (f : FrameBody) : (handleClaim n f s).credit = s.credit :=
  by simp only [handleClaim]; (repeat' split) <;> simp
@[simp] theorem handleClaim_chain (n : StationId) (f : FrameBody) : (handleClaim n f s).chain = s.chain :=
  by simp only [handleClaim]; (repeat' split) <;> simp
@[simp] theorem handleClaim_control (n : StationId) (f : FrameBody) : (handleClaim n f s).control = s.control :=
  by simp only [handleClaim]; (repeat' split) <;> simp
@[simp] theorem handleClaim_tally (n : StationId) (f : FrameBody) : (handleClaim n f s).tally = s.tally :=
  by simp only [handleClaim]; (repeat' split) <;> simp
@[simp] theorem handleClaim_pending (n : StationId) (f : FrameBody) : (handleClaim n f s).pending = s.pending :=
  by simp only [handleClaim]; (repeat' split) <;> simp

@[simp] theorem handleRelease_stations (n : StationId) (f : FrameBody) : (handleRelease n f s).stations = s.stations :=
  by simp only [handleRelease]; (repeat' split) <;> simp
@[simp] theorem handleRelease_classifier (n : StationId) (f : FrameBody) : (handleRelease n f s).classifier = s.classifier :=
  by simp only [handleRelease]; (repeat' split) <;> simp
@[simp] theorem handleRelease_map (n : StationId) (f : FrameBody) : (handleRelease n f s).map = s.map :=
  by simp only [handleRelease]; (repeat' split) <;> simp
@[simp] theorem handleRelease_credit (n : StationId) (f : FrameBody) : (handleRelease n f s).credit = s.credit :=
  by simp only [handleRelease]; (repeat' split) <;> simp
@[simp] theorem handleRelease_chain (n : StationId) (f : FrameBody) : (handleRelease n f s).chain = s.chain :=
  by simp only [handleRelease]; (repeat' split) <;> simp
@[simp] theorem handleRelease_control (n : StationId) (f : FrameBody) : (handleRelease n f s).control = s.control :=
  by simp only [handleRelease]; (repeat' split) <;> simp
@[simp] theorem handleRelease_tally (n : StationId) (f : FrameBody) : (handleRelease n f s).tally = s.tally :=
  by simp only [handleRelease]; (repeat' split) <;> simp
@[simp] theorem handleRelease_pending (n : StationId) (f : FrameBody) : (handleRelease n f s).pending = s.pending :=
  by simp only [handleRelease]; (repeat' split) <;> simp

@[simp] theorem holdExpired_stations (q : Position) : (holdExpired q s).stations = s.stations :=
  by simp only [holdExpired]; (repeat' split) <;> simp
@[simp] theorem holdExpired_classifier (q : Position) : (holdExpired q s).classifier = s.classifier :=
  by simp only [holdExpired]; (repeat' split) <;> simp
@[simp] theorem holdExpired_map (q : Position) : (holdExpired q s).map = s.map :=
  by simp only [holdExpired]; (repeat' split) <;> simp
@[simp] theorem holdExpired_credit (q : Position) : (holdExpired q s).credit = s.credit :=
  by simp only [holdExpired]; (repeat' split) <;> simp
@[simp] theorem holdExpired_chain (q : Position) : (holdExpired q s).chain = s.chain :=
  by simp only [holdExpired]; (repeat' split) <;> simp
@[simp] theorem holdExpired_control (q : Position) : (holdExpired q s).control = s.control :=
  by simp only [holdExpired]; (repeat' split) <;> simp
@[simp] theorem holdExpired_tally (q : Position) : (holdExpired q s).tally = s.tally :=
  by simp only [holdExpired]; (repeat' split) <;> simp
@[simp] theorem holdExpired_pending (q : Position) : (holdExpired q s).pending = s.pending :=
  by simp only [holdExpired]; (repeat' split) <;> simp

@[simp] theorem barExpired_stations (q : Position) : (barExpired q s).stations = s.stations :=
  by simp only [barExpired]; (repeat' split) <;> simp
@[simp] theorem barExpired_classifier (q : Position) : (barExpired q s).classifier = s.classifier :=
  by simp only [barExpired]; (repeat' split) <;> simp
@[simp] theorem barExpired_map (q : Position) : (barExpired q s).map = s.map :=
  by simp only [barExpired]; (repeat' split) <;> simp
@[simp] theorem barExpired_credit (q : Position) : (barExpired q s).credit = s.credit :=
  by simp only [barExpired]; (repeat' split) <;> simp
@[simp] theorem barExpired_chain (q : Position) : (barExpired q s).chain = s.chain :=
  by simp only [barExpired]; (repeat' split) <;> simp
@[simp] theorem barExpired_control (q : Position) : (barExpired q s).control = s.control :=
  by simp only [barExpired]; (repeat' split) <;> simp
@[simp] theorem barExpired_tally (q : Position) : (barExpired q s).tally = s.tally :=
  by simp only [barExpired]; (repeat' split) <;> simp
@[simp] theorem barExpired_pending (q : Position) : (barExpired q s).pending = s.pending :=
  by simp only [barExpired]; (repeat' split) <;> simp

@[simp] theorem claimEntry_stations (new : Phase) : (claimEntry new s).stations = s.stations :=
  by simp only [claimEntry]; (repeat' split) <;> simp
@[simp] theorem claimEntry_classifier (new : Phase) : (claimEntry new s).classifier = s.classifier :=
  by simp only [claimEntry]; (repeat' split) <;> simp
@[simp] theorem claimEntry_map (new : Phase) : (claimEntry new s).map = s.map :=
  by simp only [claimEntry]; (repeat' split) <;> simp
@[simp] theorem claimEntry_credit (new : Phase) : (claimEntry new s).credit = s.credit :=
  by simp only [claimEntry]; (repeat' split) <;> simp
@[simp] theorem claimEntry_chain (new : Phase) : (claimEntry new s).chain = s.chain :=
  by simp only [claimEntry]; (repeat' split) <;> simp
@[simp] theorem claimEntry_control (new : Phase) : (claimEntry new s).control = s.control :=
  by simp only [claimEntry]; (repeat' split) <;> simp
@[simp] theorem claimEntry_tally (new : Phase) : (claimEntry new s).tally = s.tally :=
  by simp only [claimEntry]; (repeat' split) <;> simp
@[simp] theorem claimEntry_pending (new : Phase) : (claimEntry new s).pending = s.pending :=
  by simp only [claimEntry]; (repeat' split) <;> simp
@[simp] theorem claimEntry_framers (new : Phase) : (claimEntry new s).framers = s.framers :=
  by simp only [claimEntry]; (repeat' split) <;> simp
@[simp] theorem claimEntry_areas (new : Phase) : (claimEntry new s).areas = s.areas :=
  by simp only [claimEntry]; (repeat' split) <;> simp
@[simp] theorem claimEntry_reportsLost (new : Phase) : (claimEntry new s).reportsLost = s.reportsLost :=
  by simp only [claimEntry]; (repeat' split) <;> simp

/-! ### Departures -/

@[simp] theorem clearTags_stations (n : StationId) : (clearTags n s).stations = s.stations := rfl
@[simp] theorem clearTags_classifier (n : StationId) : (clearTags n s).classifier = s.classifier := rfl
@[simp] theorem clearTags_map (n : StationId) : (clearTags n s).map = s.map := rfl
@[simp] theorem clearTags_claims (n : StationId) : (clearTags n s).claims = s.claims := rfl
@[simp] theorem clearTags_credit (n : StationId) : (clearTags n s).credit = s.credit := rfl
@[simp] theorem clearTags_control (n : StationId) : (clearTags n s).control = s.control := rfl
@[simp] theorem clearTags_tally (n : StationId) : (clearTags n s).tally = s.tally := rfl
@[simp] theorem clearTags_pending (n : StationId) : (clearTags n s).pending = s.pending := rfl
@[simp] theorem clearTags_chain_nodes (n : StationId) : (clearTags n s).chain.nodes = s.chain.nodes := rfl
@[simp] theorem clearTags_chain_mode (n : StationId) : (clearTags n s).chain.mode = s.chain.mode := rfl
@[simp] theorem clearTags_chain_replyTimeout (n : StationId) : (clearTags n s).chain.replyTimeout = s.chain.replyTimeout :=
  rfl
@[simp] theorem clearTags_chain_slot (n : StationId) : (clearTags n s).chain.slot = s.chain.slot := rfl
@[simp] theorem clearTags_chain_census (n : StationId) : (clearTags n s).chain.census = s.chain.census := rfl
@[simp] theorem clearTags_chain_halted (n : StationId) : (clearTags n s).chain.halted = s.chain.halted := rfl
@[simp] theorem clearTags_chain_sideA (n : StationId) : (clearTags n s).chain.sideA = s.chain.sideA := rfl
@[simp] theorem clearTags_chain_sideB (n : StationId) : (clearTags n s).chain.sideB = s.chain.sideB := rfl
@[simp] theorem clearTags_framers (n : StationId) : (clearTags n s).framers = s.framers := rfl
@[simp] theorem clearTags_areas (n : StationId) : (clearTags n s).areas = s.areas := rfl
@[simp] theorem clearTags_reportsLost (n : StationId) : (clearTags n s).reportsLost = s.reportsLost := rfl

@[simp] theorem leaveLinked_stations (n : StationId) : (leaveLinked n s).stations = s.stations :=
  by simp [leaveLinked]
@[simp] theorem leaveLinked_classifier (n : StationId) : (leaveLinked n s).classifier = s.classifier :=
  by simp [leaveLinked]
@[simp] theorem leaveLinked_map (n : StationId) : (leaveLinked n s).map = s.map := by simp [leaveLinked]
@[simp] theorem leaveLinked_credit (n : StationId) : (leaveLinked n s).credit = s.credit := by simp [leaveLinked]
@[simp] theorem leaveLinked_control (n : StationId) : (leaveLinked n s).control = s.control := by simp [leaveLinked]
@[simp] theorem leaveLinked_tally (n : StationId) : (leaveLinked n s).tally = s.tally := by simp [leaveLinked]
@[simp] theorem leaveLinked_pending (n : StationId) : (leaveLinked n s).pending = s.pending := by simp [leaveLinked]
@[simp] theorem leaveLinked_chain_nodes (n : StationId) : (leaveLinked n s).chain.nodes = s.chain.nodes :=
  by simp [leaveLinked]
@[simp] theorem leaveLinked_chain_mode (n : StationId) : (leaveLinked n s).chain.mode = s.chain.mode :=
  by simp [leaveLinked]
@[simp] theorem leaveLinked_chain_replyTimeout (n : StationId) : (leaveLinked n s).chain.replyTimeout = s.chain.replyTimeout :=
  by simp [leaveLinked]
@[simp] theorem leaveLinked_chain_slot (n : StationId) : (leaveLinked n s).chain.slot = s.chain.slot :=
  by simp [leaveLinked]
@[simp] theorem leaveLinked_chain_census (n : StationId) : (leaveLinked n s).chain.census = s.chain.census :=
  by simp [leaveLinked]
@[simp] theorem leaveLinked_chain_halted (n : StationId) : (leaveLinked n s).chain.halted = s.chain.halted :=
  by simp [leaveLinked]
@[simp] theorem leaveLinked_chain_sideA (n : StationId) : (leaveLinked n s).chain.sideA = s.chain.sideA :=
  by simp [leaveLinked]
@[simp] theorem leaveLinked_chain_sideB (n : StationId) : (leaveLinked n s).chain.sideB = s.chain.sideB :=
  by simp [leaveLinked]

@[simp] theorem changeStation_classifier (n : StationId) (x : Station) (arena : Option ArenaNotice) : (changeStation n x arena s).classifier = s.classifier :=
  by simp only [changeStation]; (repeat' split) <;> simp
@[simp] theorem changeStation_map (n : StationId) (x : Station) (arena : Option ArenaNotice) : (changeStation n x arena s).map = s.map :=
  by simp only [changeStation]; (repeat' split) <;> simp
@[simp] theorem changeStation_credit (n : StationId) (x : Station) (arena : Option ArenaNotice) : (changeStation n x arena s).credit = s.credit :=
  by simp only [changeStation]; (repeat' split) <;> simp
@[simp] theorem changeStation_control (n : StationId) (x : Station) (arena : Option ArenaNotice) : (changeStation n x arena s).control = s.control :=
  by simp only [changeStation]; (repeat' split) <;> simp
@[simp] theorem changeStation_tally (n : StationId) (x : Station) (arena : Option ArenaNotice) : (changeStation n x arena s).tally = s.tally :=
  by simp only [changeStation]; (repeat' split) <;> simp
@[simp] theorem changeStation_pending (n : StationId) (x : Station) (arena : Option ArenaNotice) : (changeStation n x arena s).pending = s.pending :=
  by simp only [changeStation]; (repeat' split) <;> simp
@[simp] theorem changeStation_chain_nodes (n : StationId) (x : Station) (arena : Option ArenaNotice) : (changeStation n x arena s).chain.nodes = s.chain.nodes :=
  by simp only [changeStation]; (repeat' split) <;> simp
@[simp] theorem changeStation_chain_mode (n : StationId) (x : Station) (arena : Option ArenaNotice) : (changeStation n x arena s).chain.mode = s.chain.mode :=
  by simp only [changeStation]; (repeat' split) <;> simp
@[simp] theorem changeStation_chain_replyTimeout (n : StationId) (x : Station) (arena : Option ArenaNotice) : (changeStation n x arena s).chain.replyTimeout = s.chain.replyTimeout :=
  by simp only [changeStation]; (repeat' split) <;> simp
@[simp] theorem changeStation_chain_slot (n : StationId) (x : Station) (arena : Option ArenaNotice) : (changeStation n x arena s).chain.slot = s.chain.slot :=
  by simp only [changeStation]; (repeat' split) <;> simp
@[simp] theorem changeStation_chain_census (n : StationId) (x : Station) (arena : Option ArenaNotice) : (changeStation n x arena s).chain.census = s.chain.census :=
  by simp only [changeStation]; (repeat' split) <;> simp
@[simp] theorem changeStation_chain_halted (n : StationId) (x : Station) (arena : Option ArenaNotice) : (changeStation n x arena s).chain.halted = s.chain.halted :=
  by simp only [changeStation]; (repeat' split) <;> simp
@[simp] theorem changeStation_chain_sideA (n : StationId) (x : Station) (arena : Option ArenaNotice) : (changeStation n x arena s).chain.sideA = s.chain.sideA :=
  by simp only [changeStation]; (repeat' split) <;> simp
@[simp] theorem changeStation_chain_sideB (n : StationId) (x : Station) (arena : Option ArenaNotice) : (changeStation n x arena s).chain.sideB = s.chain.sideB :=
  by simp only [changeStation]; (repeat' split) <;> simp

@[simp] theorem disableStation_classifier (n : StationId) : (disableStation n s).classifier = s.classifier :=
  by simp [disableStation]
@[simp] theorem disableStation_map (n : StationId) : (disableStation n s).map = s.map := by simp [disableStation]
@[simp] theorem disableStation_credit (n : StationId) : (disableStation n s).credit = s.credit :=
  by simp [disableStation]
@[simp] theorem disableStation_control (n : StationId) : (disableStation n s).control = s.control :=
  by simp [disableStation]
@[simp] theorem disableStation_tally (n : StationId) : (disableStation n s).tally = s.tally :=
  by simp [disableStation]
@[simp] theorem disableStation_pending (n : StationId) : (disableStation n s).pending = s.pending :=
  by simp [disableStation]
@[simp] theorem disableStation_chain_nodes (n : StationId) : (disableStation n s).chain.nodes = s.chain.nodes :=
  by simp [disableStation]
@[simp] theorem disableStation_chain_mode (n : StationId) : (disableStation n s).chain.mode = s.chain.mode :=
  by simp [disableStation]
@[simp] theorem disableStation_chain_replyTimeout (n : StationId) : (disableStation n s).chain.replyTimeout = s.chain.replyTimeout :=
  by simp [disableStation]
@[simp] theorem disableStation_chain_slot (n : StationId) : (disableStation n s).chain.slot = s.chain.slot :=
  by simp [disableStation]
@[simp] theorem disableStation_chain_census (n : StationId) : (disableStation n s).chain.census = s.chain.census :=
  by simp [disableStation]
@[simp] theorem disableStation_chain_halted (n : StationId) : (disableStation n s).chain.halted = s.chain.halted :=
  by simp [disableStation]
@[simp] theorem disableStation_chain_sideA (n : StationId) : (disableStation n s).chain.sideA = s.chain.sideA :=
  by simp [disableStation]
@[simp] theorem disableStation_chain_sideB (n : StationId) : (disableStation n s).chain.sideB = s.chain.sideB :=
  by simp [disableStation]

@[simp] theorem disableByVerdict_classifier (n : StationId) : (disableByVerdict n s).classifier = s.classifier :=
  by simp only [disableByVerdict]; (repeat' split) <;> simp
@[simp] theorem disableByVerdict_map (n : StationId) : (disableByVerdict n s).map = s.map :=
  by simp only [disableByVerdict]; (repeat' split) <;> simp
@[simp] theorem disableByVerdict_credit (n : StationId) : (disableByVerdict n s).credit = s.credit :=
  by simp only [disableByVerdict]; (repeat' split) <;> simp
@[simp] theorem disableByVerdict_control (n : StationId) : (disableByVerdict n s).control = s.control :=
  by simp only [disableByVerdict]; (repeat' split) <;> simp
@[simp] theorem disableByVerdict_tally (n : StationId) : (disableByVerdict n s).tally = s.tally :=
  by simp only [disableByVerdict]; (repeat' split) <;> simp
@[simp] theorem disableByVerdict_pending (n : StationId) : (disableByVerdict n s).pending = s.pending :=
  by simp only [disableByVerdict]; (repeat' split) <;> simp
@[simp] theorem disableByVerdict_chain_nodes (n : StationId) : (disableByVerdict n s).chain.nodes = s.chain.nodes :=
  by simp only [disableByVerdict]; (repeat' split) <;> simp
@[simp] theorem disableByVerdict_chain_mode (n : StationId) : (disableByVerdict n s).chain.mode = s.chain.mode :=
  by simp only [disableByVerdict]; (repeat' split) <;> simp
@[simp] theorem disableByVerdict_chain_replyTimeout (n : StationId) : (disableByVerdict n s).chain.replyTimeout = s.chain.replyTimeout :=
  by simp only [disableByVerdict]; (repeat' split) <;> simp
@[simp] theorem disableByVerdict_chain_slot (n : StationId) : (disableByVerdict n s).chain.slot = s.chain.slot :=
  by simp only [disableByVerdict]; (repeat' split) <;> simp
@[simp] theorem disableByVerdict_chain_census (n : StationId) : (disableByVerdict n s).chain.census = s.chain.census :=
  by simp only [disableByVerdict]; (repeat' split) <;> simp
@[simp] theorem disableByVerdict_chain_halted (n : StationId) : (disableByVerdict n s).chain.halted = s.chain.halted :=
  by simp only [disableByVerdict]; (repeat' split) <;> simp
@[simp] theorem disableByVerdict_chain_sideA (n : StationId) : (disableByVerdict n s).chain.sideA = s.chain.sideA :=
  by simp only [disableByVerdict]; (repeat' split) <;> simp
@[simp] theorem disableByVerdict_chain_sideB (n : StationId) : (disableByVerdict n s).chain.sideB = s.chain.sideB :=
  by simp only [disableByVerdict]; (repeat' split) <;> simp

@[simp] theorem quietExpired_classifier (n : StationId) : (quietExpired n s).classifier = s.classifier :=
  by simp only [quietExpired]; (repeat' split) <;> simp
@[simp] theorem quietExpired_map (n : StationId) : (quietExpired n s).map = s.map :=
  by simp only [quietExpired]; (repeat' split) <;> simp
@[simp] theorem quietExpired_credit (n : StationId) : (quietExpired n s).credit = s.credit :=
  by simp only [quietExpired]; (repeat' split) <;> simp
@[simp] theorem quietExpired_control (n : StationId) : (quietExpired n s).control = s.control :=
  by simp only [quietExpired]; (repeat' split) <;> simp
@[simp] theorem quietExpired_tally (n : StationId) : (quietExpired n s).tally = s.tally :=
  by simp only [quietExpired]; (repeat' split) <;> simp
@[simp] theorem quietExpired_pending (n : StationId) : (quietExpired n s).pending = s.pending :=
  by simp only [quietExpired]; (repeat' split) <;> simp
@[simp] theorem quietExpired_chain_nodes (n : StationId) : (quietExpired n s).chain.nodes = s.chain.nodes :=
  by simp only [quietExpired]; (repeat' split) <;> simp
@[simp] theorem quietExpired_chain_mode (n : StationId) : (quietExpired n s).chain.mode = s.chain.mode :=
  by simp only [quietExpired]; (repeat' split) <;> simp
@[simp] theorem quietExpired_chain_replyTimeout (n : StationId) : (quietExpired n s).chain.replyTimeout = s.chain.replyTimeout :=
  by simp only [quietExpired]; (repeat' split) <;> simp
@[simp] theorem quietExpired_chain_slot (n : StationId) : (quietExpired n s).chain.slot = s.chain.slot :=
  by simp only [quietExpired]; (repeat' split) <;> simp
@[simp] theorem quietExpired_chain_census (n : StationId) : (quietExpired n s).chain.census = s.chain.census :=
  by simp only [quietExpired]; (repeat' split) <;> simp
@[simp] theorem quietExpired_chain_halted (n : StationId) : (quietExpired n s).chain.halted = s.chain.halted :=
  by simp only [quietExpired]; (repeat' split) <;> simp
@[simp] theorem quietExpired_chain_sideA (n : StationId) : (quietExpired n s).chain.sideA = s.chain.sideA :=
  by simp only [quietExpired]; (repeat' split) <;> simp
@[simp] theorem quietExpired_chain_sideB (n : StationId) : (quietExpired n s).chain.sideB = s.chain.sideB :=
  by simp only [quietExpired]; (repeat' split) <;> simp

@[simp] theorem resetStation_classifier (n : StationId) : (resetStation s n).classifier = s.classifier :=
  by simp only [resetStation]; (repeat' split) <;> simp
@[simp] theorem resetStation_map (n : StationId) : (resetStation s n).map = s.map :=
  by simp only [resetStation]; (repeat' split) <;> simp
@[simp] theorem resetStation_credit (n : StationId) : (resetStation s n).credit = s.credit :=
  by simp only [resetStation]; (repeat' split) <;> simp
@[simp] theorem resetStation_control (n : StationId) : (resetStation s n).control = s.control :=
  by simp only [resetStation]; (repeat' split) <;> simp
@[simp] theorem resetStation_tally (n : StationId) : (resetStation s n).tally = s.tally :=
  by simp only [resetStation]; (repeat' split) <;> simp
@[simp] theorem resetStation_pending (n : StationId) : (resetStation s n).pending = s.pending :=
  by simp only [resetStation]; (repeat' split) <;> simp
@[simp] theorem resetStation_chain_nodes (n : StationId) : (resetStation s n).chain.nodes = s.chain.nodes :=
  by simp only [resetStation]; (repeat' split) <;> simp
@[simp] theorem resetStation_chain_mode (n : StationId) : (resetStation s n).chain.mode = s.chain.mode :=
  by simp only [resetStation]; (repeat' split) <;> simp
@[simp] theorem resetStation_chain_replyTimeout (n : StationId) : (resetStation s n).chain.replyTimeout = s.chain.replyTimeout :=
  by simp only [resetStation]; (repeat' split) <;> simp
@[simp] theorem resetStation_chain_slot (n : StationId) : (resetStation s n).chain.slot = s.chain.slot :=
  by simp only [resetStation]; (repeat' split) <;> simp
@[simp] theorem resetStation_chain_census (n : StationId) : (resetStation s n).chain.census = s.chain.census :=
  by simp only [resetStation]; (repeat' split) <;> simp
@[simp] theorem resetStation_chain_halted (n : StationId) : (resetStation s n).chain.halted = s.chain.halted :=
  by simp only [resetStation]; (repeat' split) <;> simp
@[simp] theorem resetStation_chain_sideA (n : StationId) : (resetStation s n).chain.sideA = s.chain.sideA :=
  by simp only [resetStation]; (repeat' split) <;> simp
@[simp] theorem resetStation_chain_sideB (n : StationId) : (resetStation s n).chain.sideB = s.chain.sideB :=
  by simp only [resetStation]; (repeat' split) <;> simp

/-! ### Credit and admission -/

@[simp] theorem fillCredit_stations  : (fillCredit s).stations = s.stations := rfl
@[simp] theorem fillCredit_classifier  : (fillCredit s).classifier = s.classifier := rfl
@[simp] theorem fillCredit_map  : (fillCredit s).map = s.map := rfl
@[simp] theorem fillCredit_claims  : (fillCredit s).claims = s.claims := rfl
@[simp] theorem fillCredit_chain  : (fillCredit s).chain = s.chain := rfl
@[simp] theorem fillCredit_control  : (fillCredit s).control = s.control := rfl
@[simp] theorem fillCredit_tally  : (fillCredit s).tally = s.tally := rfl
@[simp] theorem fillCredit_pending  : (fillCredit s).pending = s.pending := rfl
@[simp] theorem fillCredit_framers  : (fillCredit s).framers = s.framers := rfl
@[simp] theorem fillCredit_areas  : (fillCredit s).areas = s.areas := rfl
@[simp] theorem fillCredit_reportsLost  : (fillCredit s).reportsLost = s.reportsLost := rfl

@[simp] theorem creditEntry_stations (old new : Phase) : (creditEntry old new s).stations = s.stations :=
  by simp only [creditEntry]; (repeat' split) <;> simp
@[simp] theorem creditEntry_classifier (old new : Phase) : (creditEntry old new s).classifier = s.classifier :=
  by simp only [creditEntry]; (repeat' split) <;> simp
@[simp] theorem creditEntry_map (old new : Phase) : (creditEntry old new s).map = s.map :=
  by simp only [creditEntry]; (repeat' split) <;> simp
@[simp] theorem creditEntry_claims (old new : Phase) : (creditEntry old new s).claims = s.claims :=
  by simp only [creditEntry]; (repeat' split) <;> simp
@[simp] theorem creditEntry_chain (old new : Phase) : (creditEntry old new s).chain = s.chain :=
  by simp only [creditEntry]; (repeat' split) <;> simp
@[simp] theorem creditEntry_control (old new : Phase) : (creditEntry old new s).control = s.control :=
  by simp only [creditEntry]; (repeat' split) <;> simp
@[simp] theorem creditEntry_tally (old new : Phase) : (creditEntry old new s).tally = s.tally :=
  by simp only [creditEntry]; (repeat' split) <;> simp
@[simp] theorem creditEntry_pending (old new : Phase) : (creditEntry old new s).pending = s.pending :=
  by simp only [creditEntry]; (repeat' split) <;> simp
@[simp] theorem creditEntry_framers (old new : Phase) : (creditEntry old new s).framers = s.framers :=
  by simp only [creditEntry]; (repeat' split) <;> simp
@[simp] theorem creditEntry_areas (old new : Phase) : (creditEntry old new s).areas = s.areas :=
  by simp only [creditEntry]; (repeat' split) <;> simp
@[simp] theorem creditEntry_reportsLost (old new : Phase) : (creditEntry old new s).reportsLost = s.reportsLost :=
  by simp only [creditEntry]; (repeat' split) <;> simp

@[simp] theorem tickFalls_stations  : (tickFalls s).stations = s.stations := rfl
@[simp] theorem tickFalls_classifier  : (tickFalls s).classifier = s.classifier := rfl
@[simp] theorem tickFalls_map  : (tickFalls s).map = s.map := rfl
@[simp] theorem tickFalls_claims  : (tickFalls s).claims = s.claims := rfl
@[simp] theorem tickFalls_chain  : (tickFalls s).chain = s.chain := rfl
@[simp] theorem tickFalls_tally  : (tickFalls s).tally = s.tally := rfl
@[simp] theorem tickFalls_pending  : (tickFalls s).pending = s.pending := rfl
@[simp] theorem tickFalls_framers  : (tickFalls s).framers = s.framers := rfl
@[simp] theorem tickFalls_areas  : (tickFalls s).areas = s.areas := rfl
@[simp] theorem tickFalls_reportsLost  : (tickFalls s).reportsLost = s.reportsLost := rfl

@[simp] theorem chargeAndStore_stations (n : StationId) (f : Frame) (q : Position) (steer : Option AreaId) : (chargeAndStore n f q steer s).stations = s.stations :=
  by simp only [chargeAndStore]; (repeat' split) <;> simp
@[simp] theorem chargeAndStore_classifier (n : StationId) (f : Frame) (q : Position) (steer : Option AreaId) : (chargeAndStore n f q steer s).classifier = s.classifier :=
  by simp only [chargeAndStore]; (repeat' split) <;> simp
@[simp] theorem chargeAndStore_map (n : StationId) (f : Frame) (q : Position) (steer : Option AreaId) : (chargeAndStore n f q steer s).map = s.map :=
  by simp only [chargeAndStore]; (repeat' split) <;> simp
@[simp] theorem chargeAndStore_claims (n : StationId) (f : Frame) (q : Position) (steer : Option AreaId) : (chargeAndStore n f q steer s).claims = s.claims :=
  by simp only [chargeAndStore]; (repeat' split) <;> simp
@[simp] theorem chargeAndStore_chain (n : StationId) (f : Frame) (q : Position) (steer : Option AreaId) : (chargeAndStore n f q steer s).chain = s.chain :=
  by simp only [chargeAndStore]; (repeat' split) <;> simp
@[simp] theorem chargeAndStore_control (n : StationId) (f : Frame) (q : Position) (steer : Option AreaId) : (chargeAndStore n f q steer s).control = s.control :=
  by simp only [chargeAndStore]; (repeat' split) <;> simp
@[simp] theorem chargeAndStore_tally (n : StationId) (f : Frame) (q : Position) (steer : Option AreaId) : (chargeAndStore n f q steer s).tally = s.tally :=
  by simp only [chargeAndStore]; (repeat' split) <;> simp
@[simp] theorem chargeAndStore_pending (n : StationId) (f : Frame) (q : Position) (steer : Option AreaId) : (chargeAndStore n f q steer s).pending = s.pending :=
  by simp only [chargeAndStore]; (repeat' split) <;> simp

@[simp] theorem admitCommand_stations (n : StationId) (f : Frame) (q : Position) (shared : Bool) (steer : Option AreaId) : (admitCommand n f q shared steer s).stations = s.stations :=
  by simp only [admitCommand]; (repeat' split) <;> simp
@[simp] theorem admitCommand_classifier (n : StationId) (f : Frame) (q : Position) (shared : Bool) (steer : Option AreaId) : (admitCommand n f q shared steer s).classifier = s.classifier :=
  by simp only [admitCommand]; (repeat' split) <;> simp
@[simp] theorem admitCommand_map (n : StationId) (f : Frame) (q : Position) (shared : Bool) (steer : Option AreaId) : (admitCommand n f q shared steer s).map = s.map :=
  by simp only [admitCommand]; (repeat' split) <;> simp
@[simp] theorem admitCommand_claims (n : StationId) (f : Frame) (q : Position) (shared : Bool) (steer : Option AreaId) : (admitCommand n f q shared steer s).claims = s.claims :=
  by simp only [admitCommand]; (repeat' split) <;> simp
@[simp] theorem admitCommand_chain (n : StationId) (f : Frame) (q : Position) (shared : Bool) (steer : Option AreaId) : (admitCommand n f q shared steer s).chain = s.chain :=
  by simp only [admitCommand]; (repeat' split) <;> simp
@[simp] theorem admitCommand_control (n : StationId) (f : Frame) (q : Position) (shared : Bool) (steer : Option AreaId) : (admitCommand n f q shared steer s).control = s.control :=
  by simp only [admitCommand]; (repeat' split) <;> simp
@[simp] theorem admitCommand_tally (n : StationId) (f : Frame) (q : Position) (shared : Bool) (steer : Option AreaId) : (admitCommand n f q shared steer s).tally = s.tally :=
  by simp only [admitCommand]; (repeat' split) <;> simp
@[simp] theorem admitCommand_pending (n : StationId) (f : Frame) (q : Position) (shared : Bool) (steer : Option AreaId) : (admitCommand n f q shared steer s).pending = s.pending :=
  by simp only [admitCommand]; (repeat' split) <;> simp

@[simp] theorem handleElement_stations (n : StationId) (f : Frame) (steer : Option AreaId) : (handleElement n f steer s).stations = s.stations :=
  by simp only [handleElement]; (repeat' split) <;> simp
@[simp] theorem handleElement_classifier (n : StationId) (f : Frame) (steer : Option AreaId) : (handleElement n f steer s).classifier = s.classifier :=
  by simp only [handleElement]; (repeat' split) <;> simp
@[simp] theorem handleElement_map (n : StationId) (f : Frame) (steer : Option AreaId) : (handleElement n f steer s).map = s.map :=
  by simp only [handleElement]; (repeat' split) <;> simp
@[simp] theorem handleElement_claims (n : StationId) (f : Frame) (steer : Option AreaId) : (handleElement n f steer s).claims = s.claims :=
  by simp only [handleElement]; (repeat' split) <;> simp
@[simp] theorem handleElement_chain (n : StationId) (f : Frame) (steer : Option AreaId) : (handleElement n f steer s).chain = s.chain :=
  by simp only [handleElement]; (repeat' split) <;> simp
@[simp] theorem handleElement_control (n : StationId) (f : Frame) (steer : Option AreaId) : (handleElement n f steer s).control = s.control :=
  by simp only [handleElement]; (repeat' split) <;> simp
@[simp] theorem handleElement_tally (n : StationId) (f : Frame) (steer : Option AreaId) : (handleElement n f steer s).tally = s.tally :=
  by simp only [handleElement]; (repeat' split) <;> simp
@[simp] theorem handleElement_pending (n : StationId) (f : Frame) (steer : Option AreaId) : (handleElement n f steer s).pending = s.pending :=
  by simp only [handleElement]; (repeat' split) <;> simp

/-! ### The stages of a station frame -/

@[simp] theorem countHit_stations (i : RuleIx) : (countHit i s).stations = s.stations := rfl
@[simp] theorem countHit_map (i : RuleIx) : (countHit i s).map = s.map := rfl
@[simp] theorem countHit_claims (i : RuleIx) : (countHit i s).claims = s.claims := rfl
@[simp] theorem countHit_credit (i : RuleIx) : (countHit i s).credit = s.credit := rfl
@[simp] theorem countHit_chain (i : RuleIx) : (countHit i s).chain = s.chain := rfl
@[simp] theorem countHit_control (i : RuleIx) : (countHit i s).control = s.control := rfl
@[simp] theorem countHit_tally (i : RuleIx) : (countHit i s).tally = s.tally := rfl
@[simp] theorem countHit_pending (i : RuleIx) : (countHit i s).pending = s.pending := rfl
@[simp] theorem countHit_framers (i : RuleIx) : (countHit i s).framers = s.framers := rfl
@[simp] theorem countHit_areas (i : RuleIx) : (countHit i s).areas = s.areas := rfl
@[simp] theorem countHit_reportsLost (i : RuleIx) : (countHit i s).reportsLost = s.reportsLost := rfl

@[simp] theorem handleFrame_classifier (k : RadioPort) (n : StationId) (f : Frame) (steer : Option AreaId) : (handleFrame k n f steer s).classifier = s.classifier :=
  by simp only [handleFrame]; (repeat' split) <;> simp
@[simp] theorem handleFrame_map (k : RadioPort) (n : StationId) (f : Frame) (steer : Option AreaId) : (handleFrame k n f steer s).map = s.map :=
  by simp only [handleFrame]; (repeat' split) <;> simp
@[simp] theorem handleFrame_chain (k : RadioPort) (n : StationId) (f : Frame) (steer : Option AreaId) : (handleFrame k n f steer s).chain = s.chain :=
  by simp only [handleFrame]; (repeat' split) <;> simp
@[simp] theorem handleFrame_control (k : RadioPort) (n : StationId) (f : Frame) (steer : Option AreaId) : (handleFrame k n f steer s).control = s.control :=
  by simp only [handleFrame]; (repeat' split) <;> simp
@[simp] theorem handleFrame_tally (k : RadioPort) (n : StationId) (f : Frame) (steer : Option AreaId) : (handleFrame k n f steer s).tally = s.tally :=
  by simp only [handleFrame]; (repeat' split) <;> simp
@[simp] theorem handleFrame_pending (k : RadioPort) (n : StationId) (f : Frame) (steer : Option AreaId) : (handleFrame k n f steer s).pending = s.pending :=
  by simp only [handleFrame]; (repeat' split) <;> simp

@[simp] theorem applyVerdict_classifier (u : Rule) (k : RadioPort) (n : StationId) (f : Frame) : (applyVerdict u k n f s).classifier = s.classifier :=
  by simp only [applyVerdict]; (repeat' split) <;> simp
@[simp] theorem applyVerdict_map (u : Rule) (k : RadioPort) (n : StationId) (f : Frame) : (applyVerdict u k n f s).map = s.map :=
  by simp only [applyVerdict]; (repeat' split) <;> simp
@[simp] theorem applyVerdict_control (u : Rule) (k : RadioPort) (n : StationId) (f : Frame) : (applyVerdict u k n f s).control = s.control :=
  by simp only [applyVerdict]; (repeat' split) <;> simp
@[simp] theorem applyVerdict_tally (u : Rule) (k : RadioPort) (n : StationId) (f : Frame) : (applyVerdict u k n f s).tally = s.tally :=
  by simp only [applyVerdict]; (repeat' split) <;> simp
@[simp] theorem applyVerdict_pending (u : Rule) (k : RadioPort) (n : StationId) (f : Frame) : (applyVerdict u k n f s).pending = s.pending :=
  by simp only [applyVerdict]; (repeat' split) <;> simp
@[simp] theorem applyVerdict_chain_nodes (u : Rule) (k : RadioPort) (n : StationId) (f : Frame) : (applyVerdict u k n f s).chain.nodes = s.chain.nodes :=
  by simp only [applyVerdict]; (repeat' split) <;> simp
@[simp] theorem applyVerdict_chain_mode (u : Rule) (k : RadioPort) (n : StationId) (f : Frame) : (applyVerdict u k n f s).chain.mode = s.chain.mode :=
  by simp only [applyVerdict]; (repeat' split) <;> simp
@[simp] theorem applyVerdict_chain_replyTimeout (u : Rule) (k : RadioPort) (n : StationId) (f : Frame) : (applyVerdict u k n f s).chain.replyTimeout = s.chain.replyTimeout :=
  by simp only [applyVerdict]; (repeat' split) <;> simp
@[simp] theorem applyVerdict_chain_slot (u : Rule) (k : RadioPort) (n : StationId) (f : Frame) : (applyVerdict u k n f s).chain.slot = s.chain.slot :=
  by simp only [applyVerdict]; (repeat' split) <;> simp
@[simp] theorem applyVerdict_chain_census (u : Rule) (k : RadioPort) (n : StationId) (f : Frame) : (applyVerdict u k n f s).chain.census = s.chain.census :=
  by simp only [applyVerdict]; (repeat' split) <;> simp
@[simp] theorem applyVerdict_chain_halted (u : Rule) (k : RadioPort) (n : StationId) (f : Frame) : (applyVerdict u k n f s).chain.halted = s.chain.halted :=
  by simp only [applyVerdict]; (repeat' split) <;> simp
@[simp] theorem applyVerdict_chain_sideA (u : Rule) (k : RadioPort) (n : StationId) (f : Frame) : (applyVerdict u k n f s).chain.sideA = s.chain.sideA :=
  by simp only [applyVerdict]; (repeat' split) <;> simp
@[simp] theorem applyVerdict_chain_sideB (u : Rule) (k : RadioPort) (n : StationId) (f : Frame) : (applyVerdict u k n f s).chain.sideB = s.chain.sideB :=
  by simp only [applyVerdict]; (repeat' split) <;> simp

@[simp] theorem applyRules_map (k : RadioPort) (n : StationId) (f : Frame) : (applyRules k n f s).map = s.map :=
  by simp only [applyRules]; (repeat' split) <;> simp
@[simp] theorem applyRules_control (k : RadioPort) (n : StationId) (f : Frame) : (applyRules k n f s).control = s.control :=
  by simp only [applyRules]; (repeat' split) <;> simp
@[simp] theorem applyRules_tally (k : RadioPort) (n : StationId) (f : Frame) : (applyRules k n f s).tally = s.tally :=
  by simp only [applyRules]; (repeat' split) <;> simp
@[simp] theorem applyRules_pending (k : RadioPort) (n : StationId) (f : Frame) : (applyRules k n f s).pending = s.pending :=
  by simp only [applyRules]; (repeat' split) <;> simp
@[simp] theorem applyRules_chain_nodes (k : RadioPort) (n : StationId) (f : Frame) : (applyRules k n f s).chain.nodes = s.chain.nodes :=
  by simp only [applyRules]; (repeat' split) <;> simp
@[simp] theorem applyRules_chain_mode (k : RadioPort) (n : StationId) (f : Frame) : (applyRules k n f s).chain.mode = s.chain.mode :=
  by simp only [applyRules]; (repeat' split) <;> simp
@[simp] theorem applyRules_chain_replyTimeout (k : RadioPort) (n : StationId) (f : Frame) : (applyRules k n f s).chain.replyTimeout = s.chain.replyTimeout :=
  by simp only [applyRules]; (repeat' split) <;> simp
@[simp] theorem applyRules_chain_slot (k : RadioPort) (n : StationId) (f : Frame) : (applyRules k n f s).chain.slot = s.chain.slot :=
  by simp only [applyRules]; (repeat' split) <;> simp
@[simp] theorem applyRules_chain_census (k : RadioPort) (n : StationId) (f : Frame) : (applyRules k n f s).chain.census = s.chain.census :=
  by simp only [applyRules]; (repeat' split) <;> simp
@[simp] theorem applyRules_chain_halted (k : RadioPort) (n : StationId) (f : Frame) : (applyRules k n f s).chain.halted = s.chain.halted :=
  by simp only [applyRules]; (repeat' split) <;> simp
@[simp] theorem applyRules_chain_sideA (k : RadioPort) (n : StationId) (f : Frame) : (applyRules k n f s).chain.sideA = s.chain.sideA :=
  by simp only [applyRules]; (repeat' split) <;> simp
@[simp] theorem applyRules_chain_sideB (k : RadioPort) (n : StationId) (f : Frame) : (applyRules k n f s).chain.sideB = s.chain.sideB :=
  by simp only [applyRules]; (repeat' split) <;> simp

@[simp] theorem passPhaseGate_map (k : RadioPort) (n : StationId) (f : Frame) : (passPhaseGate k n f s).map = s.map :=
  by simp only [passPhaseGate]; (repeat' split) <;> simp
@[simp] theorem passPhaseGate_control (k : RadioPort) (n : StationId) (f : Frame) : (passPhaseGate k n f s).control = s.control :=
  by simp only [passPhaseGate]; (repeat' split) <;> simp
@[simp] theorem passPhaseGate_tally (k : RadioPort) (n : StationId) (f : Frame) : (passPhaseGate k n f s).tally = s.tally :=
  by simp only [passPhaseGate]; (repeat' split) <;> simp
@[simp] theorem passPhaseGate_pending (k : RadioPort) (n : StationId) (f : Frame) : (passPhaseGate k n f s).pending = s.pending :=
  by simp only [passPhaseGate]; (repeat' split) <;> simp
@[simp] theorem passPhaseGate_chain_nodes (k : RadioPort) (n : StationId) (f : Frame) : (passPhaseGate k n f s).chain.nodes = s.chain.nodes :=
  by simp only [passPhaseGate]; (repeat' split) <;> simp
@[simp] theorem passPhaseGate_chain_mode (k : RadioPort) (n : StationId) (f : Frame) : (passPhaseGate k n f s).chain.mode = s.chain.mode :=
  by simp only [passPhaseGate]; (repeat' split) <;> simp
@[simp] theorem passPhaseGate_chain_replyTimeout (k : RadioPort) (n : StationId) (f : Frame) : (passPhaseGate k n f s).chain.replyTimeout = s.chain.replyTimeout :=
  by simp only [passPhaseGate]; (repeat' split) <;> simp
@[simp] theorem passPhaseGate_chain_slot (k : RadioPort) (n : StationId) (f : Frame) : (passPhaseGate k n f s).chain.slot = s.chain.slot :=
  by simp only [passPhaseGate]; (repeat' split) <;> simp
@[simp] theorem passPhaseGate_chain_census (k : RadioPort) (n : StationId) (f : Frame) : (passPhaseGate k n f s).chain.census = s.chain.census :=
  by simp only [passPhaseGate]; (repeat' split) <;> simp
@[simp] theorem passPhaseGate_chain_halted (k : RadioPort) (n : StationId) (f : Frame) : (passPhaseGate k n f s).chain.halted = s.chain.halted :=
  by simp only [passPhaseGate]; (repeat' split) <;> simp
@[simp] theorem passPhaseGate_chain_sideA (k : RadioPort) (n : StationId) (f : Frame) : (passPhaseGate k n f s).chain.sideA = s.chain.sideA :=
  by simp only [passPhaseGate]; (repeat' split) <;> simp
@[simp] theorem passPhaseGate_chain_sideB (k : RadioPort) (n : StationId) (f : Frame) : (passPhaseGate k n f s).chain.sideB = s.chain.sideB :=
  by simp only [passPhaseGate]; (repeat' split) <;> simp

@[simp] theorem stationFrame_map (k : RadioPort) (f : Frame) : (stationFrame k f s).map = s.map :=
  by simp only [stationFrame]; (repeat' split) <;> simp
@[simp] theorem stationFrame_control (k : RadioPort) (f : Frame) : (stationFrame k f s).control = s.control :=
  by simp only [stationFrame]; (repeat' split) <;> simp
@[simp] theorem stationFrame_tally (k : RadioPort) (f : Frame) : (stationFrame k f s).tally = s.tally :=
  by simp only [stationFrame]; (repeat' split) <;> simp
@[simp] theorem stationFrame_pending (k : RadioPort) (f : Frame) : (stationFrame k f s).pending = s.pending :=
  by simp only [stationFrame]; (repeat' split) <;> simp
@[simp] theorem stationFrame_chain_nodes (k : RadioPort) (f : Frame) : (stationFrame k f s).chain.nodes = s.chain.nodes :=
  by simp only [stationFrame]; (repeat' split) <;> simp
@[simp] theorem stationFrame_chain_mode (k : RadioPort) (f : Frame) : (stationFrame k f s).chain.mode = s.chain.mode :=
  by simp only [stationFrame]; (repeat' split) <;> simp
@[simp] theorem stationFrame_chain_replyTimeout (k : RadioPort) (f : Frame) : (stationFrame k f s).chain.replyTimeout = s.chain.replyTimeout :=
  by simp only [stationFrame]; (repeat' split) <;> simp
@[simp] theorem stationFrame_chain_slot (k : RadioPort) (f : Frame) : (stationFrame k f s).chain.slot = s.chain.slot :=
  by simp only [stationFrame]; (repeat' split) <;> simp
@[simp] theorem stationFrame_chain_census (k : RadioPort) (f : Frame) : (stationFrame k f s).chain.census = s.chain.census :=
  by simp only [stationFrame]; (repeat' split) <;> simp
@[simp] theorem stationFrame_chain_halted (k : RadioPort) (f : Frame) : (stationFrame k f s).chain.halted = s.chain.halted :=
  by simp only [stationFrame]; (repeat' split) <;> simp
@[simp] theorem stationFrame_chain_sideA (k : RadioPort) (f : Frame) : (stationFrame k f s).chain.sideA = s.chain.sideA :=
  by simp only [stationFrame]; (repeat' split) <;> simp
@[simp] theorem stationFrame_chain_sideB (k : RadioPort) (f : Frame) : (stationFrame k f s).chain.sideB = s.chain.sideB :=
  by simp only [stationFrame]; (repeat' split) <;> simp

/-! ### The chain -/

@[simp] theorem sendOn_stations (e : ChainEnd) (m : ChainMessage) : (sendOn e m s).stations = s.stations :=
  by simp [sendOn]
@[simp] theorem sendOn_classifier (e : ChainEnd) (m : ChainMessage) : (sendOn e m s).classifier = s.classifier :=
  by simp [sendOn]
@[simp] theorem sendOn_map (e : ChainEnd) (m : ChainMessage) : (sendOn e m s).map = s.map := by simp [sendOn]
@[simp] theorem sendOn_claims (e : ChainEnd) (m : ChainMessage) : (sendOn e m s).claims = s.claims := by simp [sendOn]
@[simp] theorem sendOn_credit (e : ChainEnd) (m : ChainMessage) : (sendOn e m s).credit = s.credit := by simp [sendOn]
@[simp] theorem sendOn_control (e : ChainEnd) (m : ChainMessage) : (sendOn e m s).control = s.control :=
  by simp [sendOn]
@[simp] theorem sendOn_tally (e : ChainEnd) (m : ChainMessage) : (sendOn e m s).tally = s.tally := by simp [sendOn]
@[simp] theorem sendOn_pending (e : ChainEnd) (m : ChainMessage) : (sendOn e m s).pending = s.pending :=
  by simp [sendOn]
@[simp] theorem sendOn_chain_nodes (e : ChainEnd) (m : ChainMessage) : (sendOn e m s).chain.nodes = s.chain.nodes :=
  by simp [sendOn]
@[simp] theorem sendOn_chain_mode (e : ChainEnd) (m : ChainMessage) : (sendOn e m s).chain.mode = s.chain.mode :=
  by simp [sendOn]
@[simp] theorem sendOn_chain_replyTimeout (e : ChainEnd) (m : ChainMessage) : (sendOn e m s).chain.replyTimeout = s.chain.replyTimeout :=
  by simp [sendOn]
@[simp] theorem sendOn_chain_tags (e : ChainEnd) (m : ChainMessage) : (sendOn e m s).chain.tags = s.chain.tags :=
  by simp [sendOn]
@[simp] theorem sendOn_chain_slot (e : ChainEnd) (m : ChainMessage) : (sendOn e m s).chain.slot = s.chain.slot :=
  by simp [sendOn]
@[simp] theorem sendOn_chain_census (e : ChainEnd) (m : ChainMessage) : (sendOn e m s).chain.census = s.chain.census :=
  by simp [sendOn]
@[simp] theorem sendOn_chain_halted (e : ChainEnd) (m : ChainMessage) : (sendOn e m s).chain.halted = s.chain.halted :=
  by simp [sendOn]
@[simp] theorem sendOn_framers (e : ChainEnd) (m : ChainMessage) : (sendOn e m s).framers = s.framers :=
  by simp [sendOn]
@[simp] theorem sendOn_areas (e : ChainEnd) (m : ChainMessage) : (sendOn e m s).areas = s.areas := by simp [sendOn]
@[simp] theorem sendOn_reportsLost (e : ChainEnd) (m : ChainMessage) : (sendOn e m s).reportsLost = s.reportsLost :=
  by simp [sendOn]

@[simp] theorem sendSignal_stations (t : ChainType) : (sendSignal t s).stations = s.stations :=
  by simp only [sendSignal]; (repeat' split) <;> simp
@[simp] theorem sendSignal_classifier (t : ChainType) : (sendSignal t s).classifier = s.classifier :=
  by simp only [sendSignal]; (repeat' split) <;> simp
@[simp] theorem sendSignal_map (t : ChainType) : (sendSignal t s).map = s.map :=
  by simp only [sendSignal]; (repeat' split) <;> simp
@[simp] theorem sendSignal_claims (t : ChainType) : (sendSignal t s).claims = s.claims :=
  by simp only [sendSignal]; (repeat' split) <;> simp
@[simp] theorem sendSignal_credit (t : ChainType) : (sendSignal t s).credit = s.credit :=
  by simp only [sendSignal]; (repeat' split) <;> simp
@[simp] theorem sendSignal_control (t : ChainType) : (sendSignal t s).control = s.control :=
  by simp only [sendSignal]; (repeat' split) <;> simp
@[simp] theorem sendSignal_tally (t : ChainType) : (sendSignal t s).tally = s.tally :=
  by simp only [sendSignal]; (repeat' split) <;> simp
@[simp] theorem sendSignal_pending (t : ChainType) : (sendSignal t s).pending = s.pending :=
  by simp only [sendSignal]; (repeat' split) <;> simp
@[simp] theorem sendSignal_chain_nodes (t : ChainType) : (sendSignal t s).chain.nodes = s.chain.nodes :=
  by simp only [sendSignal]; (repeat' split) <;> simp
@[simp] theorem sendSignal_chain_mode (t : ChainType) : (sendSignal t s).chain.mode = s.chain.mode :=
  by simp only [sendSignal]; (repeat' split) <;> simp
@[simp] theorem sendSignal_chain_replyTimeout (t : ChainType) : (sendSignal t s).chain.replyTimeout = s.chain.replyTimeout :=
  by simp only [sendSignal]; (repeat' split) <;> simp
@[simp] theorem sendSignal_chain_tags (t : ChainType) : (sendSignal t s).chain.tags = s.chain.tags :=
  by simp only [sendSignal]; (repeat' split) <;> simp
@[simp] theorem sendSignal_chain_slot (t : ChainType) : (sendSignal t s).chain.slot = s.chain.slot :=
  by simp only [sendSignal]; (repeat' split) <;> simp
@[simp] theorem sendSignal_chain_census (t : ChainType) : (sendSignal t s).chain.census = s.chain.census :=
  by simp only [sendSignal]; (repeat' split) <;> simp
@[simp] theorem sendSignal_chain_halted (t : ChainType) : (sendSignal t s).chain.halted = s.chain.halted :=
  by simp only [sendSignal]; (repeat' split) <;> simp
@[simp] theorem sendSignal_framers (t : ChainType) : (sendSignal t s).framers = s.framers :=
  by simp only [sendSignal]; (repeat' split) <;> simp
@[simp] theorem sendSignal_areas (t : ChainType) : (sendSignal t s).areas = s.areas :=
  by simp only [sendSignal]; (repeat' split) <;> simp
@[simp] theorem sendSignal_reportsLost (t : ChainType) : (sendSignal t s).reportsLost = s.reportsLost :=
  by simp only [sendSignal]; (repeat' split) <;> simp

@[simp] theorem hear_stations (q : Position) : (hear q s).stations = s.stations :=
  by simp only [hear]; (repeat' split) <;> simp
@[simp] theorem hear_classifier (q : Position) : (hear q s).classifier = s.classifier :=
  by simp only [hear]; (repeat' split) <;> simp
@[simp] theorem hear_map (q : Position) : (hear q s).map = s.map := by simp only [hear]; (repeat' split) <;> simp
@[simp] theorem hear_claims (q : Position) : (hear q s).claims = s.claims :=
  by simp only [hear]; (repeat' split) <;> simp
@[simp] theorem hear_credit (q : Position) : (hear q s).credit = s.credit :=
  by simp only [hear]; (repeat' split) <;> simp
@[simp] theorem hear_control (q : Position) : (hear q s).control = s.control :=
  by simp only [hear]; (repeat' split) <;> simp
@[simp] theorem hear_tally (q : Position) : (hear q s).tally = s.tally :=
  by simp only [hear]; (repeat' split) <;> simp
@[simp] theorem hear_pending (q : Position) : (hear q s).pending = s.pending :=
  by simp only [hear]; (repeat' split) <;> simp
@[simp] theorem hear_chain_mode (q : Position) : (hear q s).chain.mode = s.chain.mode :=
  by simp only [hear]; (repeat' split) <;> simp
@[simp] theorem hear_chain_replyTimeout (q : Position) : (hear q s).chain.replyTimeout = s.chain.replyTimeout :=
  by simp only [hear]; (repeat' split) <;> simp
@[simp] theorem hear_chain_tags (q : Position) : (hear q s).chain.tags = s.chain.tags :=
  by simp only [hear]; (repeat' split) <;> simp
@[simp] theorem hear_chain_slot (q : Position) : (hear q s).chain.slot = s.chain.slot :=
  by simp only [hear]; (repeat' split) <;> simp
@[simp] theorem hear_chain_census (q : Position) : (hear q s).chain.census = s.chain.census :=
  by simp only [hear]; (repeat' split) <;> simp
@[simp] theorem hear_chain_halted (q : Position) : (hear q s).chain.halted = s.chain.halted :=
  by simp only [hear]; (repeat' split) <;> simp
@[simp] theorem hear_chain_sideA (q : Position) : (hear q s).chain.sideA = s.chain.sideA :=
  by simp only [hear]; (repeat' split) <;> simp
@[simp] theorem hear_chain_sideB (q : Position) : (hear q s).chain.sideB = s.chain.sideB :=
  by simp only [hear]; (repeat' split) <;> simp

@[simp] theorem switchEnd_stations (q k : Position) : (switchEnd q k s).stations = s.stations :=
  by simp only [switchEnd]; (repeat' split) <;> simp
@[simp] theorem switchEnd_classifier (q k : Position) : (switchEnd q k s).classifier = s.classifier :=
  by simp only [switchEnd]; (repeat' split) <;> simp
@[simp] theorem switchEnd_map (q k : Position) : (switchEnd q k s).map = s.map :=
  by simp only [switchEnd]; (repeat' split) <;> simp
@[simp] theorem switchEnd_claims (q k : Position) : (switchEnd q k s).claims = s.claims :=
  by simp only [switchEnd]; (repeat' split) <;> simp
@[simp] theorem switchEnd_credit (q k : Position) : (switchEnd q k s).credit = s.credit :=
  by simp only [switchEnd]; (repeat' split) <;> simp
@[simp] theorem switchEnd_control (q k : Position) : (switchEnd q k s).control = s.control :=
  by simp only [switchEnd]; (repeat' split) <;> simp
@[simp] theorem switchEnd_tally (q k : Position) : (switchEnd q k s).tally = s.tally :=
  by simp only [switchEnd]; (repeat' split) <;> simp
@[simp] theorem switchEnd_pending (q k : Position) : (switchEnd q k s).pending = s.pending :=
  by simp only [switchEnd]; (repeat' split) <;> simp
@[simp] theorem switchEnd_chain_mode (q k : Position) : (switchEnd q k s).chain.mode = s.chain.mode :=
  by simp only [switchEnd]; (repeat' split) <;> simp
@[simp] theorem switchEnd_chain_replyTimeout (q k : Position) : (switchEnd q k s).chain.replyTimeout = s.chain.replyTimeout :=
  by simp only [switchEnd]; (repeat' split) <;> simp
@[simp] theorem switchEnd_chain_tags (q k : Position) : (switchEnd q k s).chain.tags = s.chain.tags :=
  by simp only [switchEnd]; (repeat' split) <;> simp
@[simp] theorem switchEnd_chain_slot (q k : Position) : (switchEnd q k s).chain.slot = s.chain.slot :=
  by simp only [switchEnd]; (repeat' split) <;> simp
@[simp] theorem switchEnd_chain_census (q k : Position) : (switchEnd q k s).chain.census = s.chain.census :=
  by simp only [switchEnd]; (repeat' split) <;> simp
@[simp] theorem switchEnd_chain_halted (q k : Position) : (switchEnd q k s).chain.halted = s.chain.halted :=
  by simp only [switchEnd]; (repeat' split) <;> simp
@[simp] theorem switchEnd_chain_sideA (q k : Position) : (switchEnd q k s).chain.sideA = s.chain.sideA :=
  by simp only [switchEnd]; (repeat' split) <;> simp
@[simp] theorem switchEnd_chain_sideB (q k : Position) : (switchEnd q k s).chain.sideB = s.chain.sideB :=
  by simp only [switchEnd]; (repeat' split) <;> simp

@[simp] theorem loseNode_stations (q : Position) : (loseNode q s).stations = s.stations :=
  by
  simp only [loseNode]; split
  · exact (foldl_keeps (fun s => s.stations) (fun s x => by simp) _ _).trans (by simp)
  · simp
@[simp] theorem loseNode_classifier (q : Position) : (loseNode q s).classifier = s.classifier :=
  by
  simp only [loseNode]; split
  · exact (foldl_keeps (fun s => s.classifier) (fun s x => by simp) _ _).trans (by simp)
  · simp
@[simp] theorem loseNode_map (q : Position) : (loseNode q s).map = s.map :=
  by
  simp only [loseNode]; split
  · exact (foldl_keeps (fun s => s.map) (fun s x => by simp) _ _).trans (by simp)
  · simp
@[simp] theorem loseNode_claims (q : Position) : (loseNode q s).claims = s.claims :=
  by
  simp only [loseNode]; split
  · exact (foldl_keeps (fun s => s.claims) (fun s x => by simp) _ _).trans (by simp)
  · simp
@[simp] theorem loseNode_credit (q : Position) : (loseNode q s).credit = s.credit :=
  by
  simp only [loseNode]; split
  · exact (foldl_keeps (fun s => s.credit) (fun s x => by simp) _ _).trans (by simp)
  · simp
@[simp] theorem loseNode_control (q : Position) : (loseNode q s).control = s.control :=
  by
  simp only [loseNode]; split
  · exact (foldl_keeps (fun s => s.control) (fun s x => by simp) _ _).trans (by simp)
  · simp
@[simp] theorem loseNode_tally (q : Position) : (loseNode q s).tally = s.tally :=
  by
  simp only [loseNode]; split
  · exact (foldl_keeps (fun s => s.tally) (fun s x => by simp) _ _).trans (by simp)
  · simp
@[simp] theorem loseNode_pending (q : Position) : (loseNode q s).pending = s.pending :=
  by
  simp only [loseNode]; split
  · exact (foldl_keeps (fun s => s.pending) (fun s x => by simp) _ _).trans (by simp)
  · simp
@[simp] theorem loseNode_chain_mode (q : Position) : (loseNode q s).chain.mode = s.chain.mode :=
  by
  simp only [loseNode]; split
  · exact (foldl_keeps (fun s => s.chain.mode) (fun s x => by simp) _ _).trans (by simp)
  · simp
@[simp] theorem loseNode_chain_replyTimeout (q : Position) : (loseNode q s).chain.replyTimeout = s.chain.replyTimeout :=
  by
  simp only [loseNode]; split
  · exact (foldl_keeps (fun s => s.chain.replyTimeout) (fun s x => by simp) _ _).trans (by simp)
  · simp
@[simp] theorem loseNode_chain_tags (q : Position) : (loseNode q s).chain.tags = s.chain.tags :=
  by
  simp only [loseNode]; split
  · exact (foldl_keeps (fun s => s.chain.tags) (fun s x => by simp) _ _).trans (by simp)
  · simp
@[simp] theorem loseNode_chain_slot (q : Position) : (loseNode q s).chain.slot = s.chain.slot :=
  by
  simp only [loseNode]; split
  · exact (foldl_keeps (fun s => s.chain.slot) (fun s x => by simp) _ _).trans (by simp)
  · simp
@[simp] theorem loseNode_chain_census (q : Position) : (loseNode q s).chain.census = s.chain.census :=
  by
  simp only [loseNode]; split
  · exact (foldl_keeps (fun s => s.chain.census) (fun s x => by simp) _ _).trans (by simp)
  · simp
@[simp] theorem loseNode_chain_halted (q : Position) : (loseNode q s).chain.halted = s.chain.halted :=
  by
  simp only [loseNode]; split
  · exact (foldl_keeps (fun s => s.chain.halted) (fun s x => by simp) _ _).trans (by simp)
  · simp
@[simp] theorem loseNode_chain_sideA (q : Position) : (loseNode q s).chain.sideA = s.chain.sideA :=
  by
  simp only [loseNode]; split
  · exact (foldl_keeps (fun s => s.chain.sideA) (fun s x => by simp) _ _).trans (by simp)
  · simp
@[simp] theorem loseNode_chain_sideB (q : Position) : (loseNode q s).chain.sideB = s.chain.sideB :=
  by
  simp only [loseNode]; split
  · exact (foldl_keeps (fun s => s.chain.sideB) (fun s x => by simp) _ _).trans (by simp)
  · simp

@[simp] theorem chargeMiss_stations (q : Position) : (chargeMiss q s).stations = s.stations :=
  by simp only [chargeMiss]; (repeat' split) <;> simp
@[simp] theorem chargeMiss_classifier (q : Position) : (chargeMiss q s).classifier = s.classifier :=
  by simp only [chargeMiss]; (repeat' split) <;> simp
@[simp] theorem chargeMiss_map (q : Position) : (chargeMiss q s).map = s.map :=
  by simp only [chargeMiss]; (repeat' split) <;> simp
@[simp] theorem chargeMiss_claims (q : Position) : (chargeMiss q s).claims = s.claims :=
  by simp only [chargeMiss]; (repeat' split) <;> simp
@[simp] theorem chargeMiss_credit (q : Position) : (chargeMiss q s).credit = s.credit :=
  by simp only [chargeMiss]; (repeat' split) <;> simp
@[simp] theorem chargeMiss_control (q : Position) : (chargeMiss q s).control = s.control :=
  by simp only [chargeMiss]; (repeat' split) <;> simp
@[simp] theorem chargeMiss_tally (q : Position) : (chargeMiss q s).tally = s.tally :=
  by simp only [chargeMiss]; (repeat' split) <;> simp
@[simp] theorem chargeMiss_pending (q : Position) : (chargeMiss q s).pending = s.pending :=
  by simp only [chargeMiss]; (repeat' split) <;> simp
@[simp] theorem chargeMiss_chain_mode (q : Position) : (chargeMiss q s).chain.mode = s.chain.mode :=
  by simp only [chargeMiss]; (repeat' split) <;> simp
@[simp] theorem chargeMiss_chain_replyTimeout (q : Position) : (chargeMiss q s).chain.replyTimeout = s.chain.replyTimeout :=
  by simp only [chargeMiss]; (repeat' split) <;> simp
@[simp] theorem chargeMiss_chain_tags (q : Position) : (chargeMiss q s).chain.tags = s.chain.tags :=
  by simp only [chargeMiss]; (repeat' split) <;> simp
@[simp] theorem chargeMiss_chain_slot (q : Position) : (chargeMiss q s).chain.slot = s.chain.slot :=
  by simp only [chargeMiss]; (repeat' split) <;> simp
@[simp] theorem chargeMiss_chain_census (q : Position) : (chargeMiss q s).chain.census = s.chain.census :=
  by simp only [chargeMiss]; (repeat' split) <;> simp
@[simp] theorem chargeMiss_chain_halted (q : Position) : (chargeMiss q s).chain.halted = s.chain.halted :=
  by simp only [chargeMiss]; (repeat' split) <;> simp
@[simp] theorem chargeMiss_chain_sideA (q : Position) : (chargeMiss q s).chain.sideA = s.chain.sideA :=
  by simp only [chargeMiss]; (repeat' split) <;> simp
@[simp] theorem chargeMiss_chain_sideB (q : Position) : (chargeMiss q s).chain.sideB = s.chain.sideB :=
  by simp only [chargeMiss]; (repeat' split) <;> simp

@[simp] theorem sendCommand_stations (t : TagId) (q : Position) (origin : Origin) (function : Byte) (value : BitVec 16) : (sendCommand t q origin function value s).stations = s.stations :=
  by simp [sendCommand]
@[simp] theorem sendCommand_classifier (t : TagId) (q : Position) (origin : Origin) (function : Byte) (value : BitVec 16) : (sendCommand t q origin function value s).classifier = s.classifier :=
  by simp [sendCommand]
@[simp] theorem sendCommand_map (t : TagId) (q : Position) (origin : Origin) (function : Byte) (value : BitVec 16) : (sendCommand t q origin function value s).map = s.map :=
  by simp [sendCommand]
@[simp] theorem sendCommand_claims (t : TagId) (q : Position) (origin : Origin) (function : Byte) (value : BitVec 16) : (sendCommand t q origin function value s).claims = s.claims :=
  by simp [sendCommand]
@[simp] theorem sendCommand_credit (t : TagId) (q : Position) (origin : Origin) (function : Byte) (value : BitVec 16) : (sendCommand t q origin function value s).credit = s.credit :=
  by simp [sendCommand]
@[simp] theorem sendCommand_control (t : TagId) (q : Position) (origin : Origin) (function : Byte) (value : BitVec 16) : (sendCommand t q origin function value s).control = s.control :=
  by simp [sendCommand]
@[simp] theorem sendCommand_tally (t : TagId) (q : Position) (origin : Origin) (function : Byte) (value : BitVec 16) : (sendCommand t q origin function value s).tally = s.tally :=
  by simp [sendCommand]
@[simp] theorem sendCommand_pending (t : TagId) (q : Position) (origin : Origin) (function : Byte) (value : BitVec 16) : (sendCommand t q origin function value s).pending = s.pending :=
  by simp [sendCommand]
@[simp] theorem sendCommand_chain_nodes (t : TagId) (q : Position) (origin : Origin) (function : Byte) (value : BitVec 16) : (sendCommand t q origin function value s).chain.nodes = s.chain.nodes :=
  by simp [sendCommand]
@[simp] theorem sendCommand_chain_mode (t : TagId) (q : Position) (origin : Origin) (function : Byte) (value : BitVec 16) : (sendCommand t q origin function value s).chain.mode = s.chain.mode :=
  by simp [sendCommand]
@[simp] theorem sendCommand_chain_replyTimeout (t : TagId) (q : Position) (origin : Origin) (function : Byte) (value : BitVec 16) : (sendCommand t q origin function value s).chain.replyTimeout = s.chain.replyTimeout :=
  by simp [sendCommand]
@[simp] theorem sendCommand_chain_slot (t : TagId) (q : Position) (origin : Origin) (function : Byte) (value : BitVec 16) : (sendCommand t q origin function value s).chain.slot = s.chain.slot :=
  by simp [sendCommand]
@[simp] theorem sendCommand_chain_census (t : TagId) (q : Position) (origin : Origin) (function : Byte) (value : BitVec 16) : (sendCommand t q origin function value s).chain.census = s.chain.census :=
  by simp [sendCommand]
@[simp] theorem sendCommand_chain_halted (t : TagId) (q : Position) (origin : Origin) (function : Byte) (value : BitVec 16) : (sendCommand t q origin function value s).chain.halted = s.chain.halted :=
  by simp [sendCommand]
@[simp] theorem sendCommand_framers (t : TagId) (q : Position) (origin : Origin) (function : Byte) (value : BitVec 16) : (sendCommand t q origin function value s).framers = s.framers :=
  by simp [sendCommand]
@[simp] theorem sendCommand_areas (t : TagId) (q : Position) (origin : Origin) (function : Byte) (value : BitVec 16) : (sendCommand t q origin function value s).areas = s.areas :=
  by simp [sendCommand]
@[simp] theorem sendCommand_reportsLost (t : TagId) (q : Position) (origin : Origin) (function : Byte) (value : BitVec 16) : (sendCommand t q origin function value s).reportsLost = s.reportsLost :=
  by simp [sendCommand]

@[simp] theorem endTransaction_stations (t : TagId) (outcome : AnswerCode) (value : BitVec 16) : (endTransaction t outcome value s).stations = s.stations :=
  by simp only [endTransaction]; (repeat' split) <;> simp
@[simp] theorem endTransaction_classifier (t : TagId) (outcome : AnswerCode) (value : BitVec 16) : (endTransaction t outcome value s).classifier = s.classifier :=
  by simp only [endTransaction]; (repeat' split) <;> simp
@[simp] theorem endTransaction_map (t : TagId) (outcome : AnswerCode) (value : BitVec 16) : (endTransaction t outcome value s).map = s.map :=
  by simp only [endTransaction]; (repeat' split) <;> simp
@[simp] theorem endTransaction_claims (t : TagId) (outcome : AnswerCode) (value : BitVec 16) : (endTransaction t outcome value s).claims = s.claims :=
  by simp only [endTransaction]; (repeat' split) <;> simp
@[simp] theorem endTransaction_credit (t : TagId) (outcome : AnswerCode) (value : BitVec 16) : (endTransaction t outcome value s).credit = s.credit :=
  by simp only [endTransaction]; (repeat' split) <;> simp
@[simp] theorem endTransaction_control (t : TagId) (outcome : AnswerCode) (value : BitVec 16) : (endTransaction t outcome value s).control = s.control :=
  by simp only [endTransaction]; (repeat' split) <;> simp
@[simp] theorem endTransaction_tally (t : TagId) (outcome : AnswerCode) (value : BitVec 16) : (endTransaction t outcome value s).tally = s.tally :=
  by simp only [endTransaction]; (repeat' split) <;> simp
@[simp] theorem endTransaction_pending (t : TagId) (outcome : AnswerCode) (value : BitVec 16) : (endTransaction t outcome value s).pending = s.pending :=
  by simp only [endTransaction]; (repeat' split) <;> simp
@[simp] theorem endTransaction_chain_nodes (t : TagId) (outcome : AnswerCode) (value : BitVec 16) : (endTransaction t outcome value s).chain.nodes = s.chain.nodes :=
  by simp only [endTransaction]; (repeat' split) <;> simp
@[simp] theorem endTransaction_chain_mode (t : TagId) (outcome : AnswerCode) (value : BitVec 16) : (endTransaction t outcome value s).chain.mode = s.chain.mode :=
  by simp only [endTransaction]; (repeat' split) <;> simp
@[simp] theorem endTransaction_chain_replyTimeout (t : TagId) (outcome : AnswerCode) (value : BitVec 16) : (endTransaction t outcome value s).chain.replyTimeout = s.chain.replyTimeout :=
  by simp only [endTransaction]; (repeat' split) <;> simp
@[simp] theorem endTransaction_chain_slot (t : TagId) (outcome : AnswerCode) (value : BitVec 16) : (endTransaction t outcome value s).chain.slot = s.chain.slot :=
  by simp only [endTransaction]; (repeat' split) <;> simp
@[simp] theorem endTransaction_chain_census (t : TagId) (outcome : AnswerCode) (value : BitVec 16) : (endTransaction t outcome value s).chain.census = s.chain.census :=
  by simp only [endTransaction]; (repeat' split) <;> simp
@[simp] theorem endTransaction_chain_halted (t : TagId) (outcome : AnswerCode) (value : BitVec 16) : (endTransaction t outcome value s).chain.halted = s.chain.halted :=
  by simp only [endTransaction]; (repeat' split) <;> simp
@[simp] theorem endTransaction_chain_sideA (t : TagId) (outcome : AnswerCode) (value : BitVec 16) : (endTransaction t outcome value s).chain.sideA = s.chain.sideA :=
  by simp only [endTransaction]; (repeat' split) <;> simp
@[simp] theorem endTransaction_chain_sideB (t : TagId) (outcome : AnswerCode) (value : BitVec 16) : (endTransaction t outcome value s).chain.sideB = s.chain.sideB :=
  by simp only [endTransaction]; (repeat' split) <;> simp

@[simp] theorem abortTags_stations (p : TagRecord → Bool) : (abortTags p s).stations = s.stations :=
  by
  unfold abortTags; exact foldl_keeps (fun s => s.stations) (fun s x => by split <;> simp) _ _
@[simp] theorem abortTags_classifier (p : TagRecord → Bool) : (abortTags p s).classifier = s.classifier :=
  by
  unfold abortTags; exact foldl_keeps (fun s => s.classifier) (fun s x => by split <;> simp) _ _
@[simp] theorem abortTags_map (p : TagRecord → Bool) : (abortTags p s).map = s.map :=
  by
  unfold abortTags; exact foldl_keeps (fun s => s.map) (fun s x => by split <;> simp) _ _
@[simp] theorem abortTags_claims (p : TagRecord → Bool) : (abortTags p s).claims = s.claims :=
  by
  unfold abortTags; exact foldl_keeps (fun s => s.claims) (fun s x => by split <;> simp) _ _
@[simp] theorem abortTags_credit (p : TagRecord → Bool) : (abortTags p s).credit = s.credit :=
  by
  unfold abortTags; exact foldl_keeps (fun s => s.credit) (fun s x => by split <;> simp) _ _
@[simp] theorem abortTags_control (p : TagRecord → Bool) : (abortTags p s).control = s.control :=
  by
  unfold abortTags; exact foldl_keeps (fun s => s.control) (fun s x => by split <;> simp) _ _
@[simp] theorem abortTags_tally (p : TagRecord → Bool) : (abortTags p s).tally = s.tally :=
  by
  unfold abortTags; exact foldl_keeps (fun s => s.tally) (fun s x => by split <;> simp) _ _
@[simp] theorem abortTags_pending (p : TagRecord → Bool) : (abortTags p s).pending = s.pending :=
  by
  unfold abortTags; exact foldl_keeps (fun s => s.pending) (fun s x => by split <;> simp) _ _
@[simp] theorem abortTags_chain_nodes (p : TagRecord → Bool) : (abortTags p s).chain.nodes = s.chain.nodes :=
  by
  unfold abortTags; exact foldl_keeps (fun s => s.chain.nodes) (fun s x => by split <;> simp) _ _
@[simp] theorem abortTags_chain_mode (p : TagRecord → Bool) : (abortTags p s).chain.mode = s.chain.mode :=
  by
  unfold abortTags; exact foldl_keeps (fun s => s.chain.mode) (fun s x => by split <;> simp) _ _
@[simp] theorem abortTags_chain_replyTimeout (p : TagRecord → Bool) : (abortTags p s).chain.replyTimeout = s.chain.replyTimeout :=
  by
  unfold abortTags; exact foldl_keeps (fun s => s.chain.replyTimeout) (fun s x => by split <;> simp) _ _
@[simp] theorem abortTags_chain_slot (p : TagRecord → Bool) : (abortTags p s).chain.slot = s.chain.slot :=
  by
  unfold abortTags; exact foldl_keeps (fun s => s.chain.slot) (fun s x => by split <;> simp) _ _
@[simp] theorem abortTags_chain_census (p : TagRecord → Bool) : (abortTags p s).chain.census = s.chain.census :=
  by
  unfold abortTags; exact foldl_keeps (fun s => s.chain.census) (fun s x => by split <;> simp) _ _
@[simp] theorem abortTags_chain_halted (p : TagRecord → Bool) : (abortTags p s).chain.halted = s.chain.halted :=
  by
  unfold abortTags; exact foldl_keeps (fun s => s.chain.halted) (fun s x => by split <;> simp) _ _
@[simp] theorem abortTags_chain_sideA (p : TagRecord → Bool) : (abortTags p s).chain.sideA = s.chain.sideA :=
  by
  unfold abortTags; exact foldl_keeps (fun s => s.chain.sideA) (fun s x => by split <;> simp) _ _
@[simp] theorem abortTags_chain_sideB (p : TagRecord → Bool) : (abortTags p s).chain.sideB = s.chain.sideB :=
  by
  unfold abortTags; exact foldl_keeps (fun s => s.chain.sideB) (fun s x => by split <;> simp) _ _

@[simp] theorem replyTimedOut_stations (t : TagId) : (replyTimedOut t s).stations = s.stations :=
  by simp only [replyTimedOut]; (repeat' split) <;> simp
@[simp] theorem replyTimedOut_classifier (t : TagId) : (replyTimedOut t s).classifier = s.classifier :=
  by simp only [replyTimedOut]; (repeat' split) <;> simp
@[simp] theorem replyTimedOut_map (t : TagId) : (replyTimedOut t s).map = s.map :=
  by simp only [replyTimedOut]; (repeat' split) <;> simp
@[simp] theorem replyTimedOut_claims (t : TagId) : (replyTimedOut t s).claims = s.claims :=
  by simp only [replyTimedOut]; (repeat' split) <;> simp
@[simp] theorem replyTimedOut_credit (t : TagId) : (replyTimedOut t s).credit = s.credit :=
  by simp only [replyTimedOut]; (repeat' split) <;> simp
@[simp] theorem replyTimedOut_control (t : TagId) : (replyTimedOut t s).control = s.control :=
  by simp only [replyTimedOut]; (repeat' split) <;> simp
@[simp] theorem replyTimedOut_tally (t : TagId) : (replyTimedOut t s).tally = s.tally :=
  by simp only [replyTimedOut]; (repeat' split) <;> simp
@[simp] theorem replyTimedOut_pending (t : TagId) : (replyTimedOut t s).pending = s.pending :=
  by simp only [replyTimedOut]; (repeat' split) <;> simp
@[simp] theorem replyTimedOut_chain_mode (t : TagId) : (replyTimedOut t s).chain.mode = s.chain.mode :=
  by simp only [replyTimedOut]; (repeat' split) <;> simp
@[simp] theorem replyTimedOut_chain_replyTimeout (t : TagId) : (replyTimedOut t s).chain.replyTimeout = s.chain.replyTimeout :=
  by simp only [replyTimedOut]; (repeat' split) <;> simp
@[simp] theorem replyTimedOut_chain_slot (t : TagId) : (replyTimedOut t s).chain.slot = s.chain.slot :=
  by simp only [replyTimedOut]; (repeat' split) <;> simp
@[simp] theorem replyTimedOut_chain_census (t : TagId) : (replyTimedOut t s).chain.census = s.chain.census :=
  by simp only [replyTimedOut]; (repeat' split) <;> simp
@[simp] theorem replyTimedOut_chain_halted (t : TagId) : (replyTimedOut t s).chain.halted = s.chain.halted :=
  by simp only [replyTimedOut]; (repeat' split) <;> simp
@[simp] theorem replyTimedOut_chain_sideA (t : TagId) : (replyTimedOut t s).chain.sideA = s.chain.sideA :=
  by simp only [replyTimedOut]; (repeat' split) <;> simp
@[simp] theorem replyTimedOut_chain_sideB (t : TagId) : (replyTimedOut t s).chain.sideB = s.chain.sideB :=
  by simp only [replyTimedOut]; (repeat' split) <;> simp

@[simp] theorem recheckAndSend_stations (t : TagId) (f : Frame) : (recheckAndSend t f s).stations = s.stations :=
  by simp only [recheckAndSend]; (repeat' split) <;> simp
@[simp] theorem recheckAndSend_classifier (t : TagId) (f : Frame) : (recheckAndSend t f s).classifier = s.classifier :=
  by simp only [recheckAndSend]; (repeat' split) <;> simp
@[simp] theorem recheckAndSend_map (t : TagId) (f : Frame) : (recheckAndSend t f s).map = s.map :=
  by simp only [recheckAndSend]; (repeat' split) <;> simp
@[simp] theorem recheckAndSend_claims (t : TagId) (f : Frame) : (recheckAndSend t f s).claims = s.claims :=
  by simp only [recheckAndSend]; (repeat' split) <;> simp
@[simp] theorem recheckAndSend_credit (t : TagId) (f : Frame) : (recheckAndSend t f s).credit = s.credit :=
  by simp only [recheckAndSend]; (repeat' split) <;> simp
@[simp] theorem recheckAndSend_control (t : TagId) (f : Frame) : (recheckAndSend t f s).control = s.control :=
  by simp only [recheckAndSend]; (repeat' split) <;> simp
@[simp] theorem recheckAndSend_tally (t : TagId) (f : Frame) : (recheckAndSend t f s).tally = s.tally :=
  by simp only [recheckAndSend]; (repeat' split) <;> simp
@[simp] theorem recheckAndSend_pending (t : TagId) (f : Frame) : (recheckAndSend t f s).pending = s.pending :=
  by simp only [recheckAndSend]; (repeat' split) <;> simp
@[simp] theorem recheckAndSend_chain_nodes (t : TagId) (f : Frame) : (recheckAndSend t f s).chain.nodes = s.chain.nodes :=
  by simp only [recheckAndSend]; (repeat' split) <;> simp
@[simp] theorem recheckAndSend_chain_mode (t : TagId) (f : Frame) : (recheckAndSend t f s).chain.mode = s.chain.mode :=
  by simp only [recheckAndSend]; (repeat' split) <;> simp
@[simp] theorem recheckAndSend_chain_replyTimeout (t : TagId) (f : Frame) : (recheckAndSend t f s).chain.replyTimeout = s.chain.replyTimeout :=
  by simp only [recheckAndSend]; (repeat' split) <;> simp
@[simp] theorem recheckAndSend_chain_slot (t : TagId) (f : Frame) : (recheckAndSend t f s).chain.slot = s.chain.slot :=
  by simp only [recheckAndSend]; (repeat' split) <;> simp
@[simp] theorem recheckAndSend_chain_census (t : TagId) (f : Frame) : (recheckAndSend t f s).chain.census = s.chain.census :=
  by simp only [recheckAndSend]; (repeat' split) <;> simp
@[simp] theorem recheckAndSend_chain_halted (t : TagId) (f : Frame) : (recheckAndSend t f s).chain.halted = s.chain.halted :=
  by simp only [recheckAndSend]; (repeat' split) <;> simp

@[simp] theorem dequeueOne_stations  : (dequeueOne s).stations = s.stations :=
  by simp only [dequeueOne]; (repeat' split) <;> simp
@[simp] theorem dequeueOne_classifier  : (dequeueOne s).classifier = s.classifier :=
  by simp only [dequeueOne]; (repeat' split) <;> simp
@[simp] theorem dequeueOne_map  : (dequeueOne s).map = s.map := by simp only [dequeueOne]; (repeat' split) <;> simp
@[simp] theorem dequeueOne_claims  : (dequeueOne s).claims = s.claims :=
  by simp only [dequeueOne]; (repeat' split) <;> simp
@[simp] theorem dequeueOne_credit  : (dequeueOne s).credit = s.credit :=
  by simp only [dequeueOne]; (repeat' split) <;> simp
@[simp] theorem dequeueOne_control  : (dequeueOne s).control = s.control :=
  by simp only [dequeueOne]; (repeat' split) <;> simp
@[simp] theorem dequeueOne_tally  : (dequeueOne s).tally = s.tally :=
  by simp only [dequeueOne]; (repeat' split) <;> simp
@[simp] theorem dequeueOne_pending  : (dequeueOne s).pending = s.pending :=
  by simp only [dequeueOne]; (repeat' split) <;> simp
@[simp] theorem dequeueOne_chain_nodes  : (dequeueOne s).chain.nodes = s.chain.nodes :=
  by simp only [dequeueOne]; (repeat' split) <;> simp
@[simp] theorem dequeueOne_chain_mode  : (dequeueOne s).chain.mode = s.chain.mode :=
  by simp only [dequeueOne]; (repeat' split) <;> simp
@[simp] theorem dequeueOne_chain_replyTimeout  : (dequeueOne s).chain.replyTimeout = s.chain.replyTimeout :=
  by simp only [dequeueOne]; (repeat' split) <;> simp
@[simp] theorem dequeueOne_chain_slot  : (dequeueOne s).chain.slot = s.chain.slot :=
  by simp only [dequeueOne]; (repeat' split) <;> simp
@[simp] theorem dequeueOne_chain_census  : (dequeueOne s).chain.census = s.chain.census :=
  by simp only [dequeueOne]; (repeat' split) <;> simp
@[simp] theorem dequeueOne_chain_halted  : (dequeueOne s).chain.halted = s.chain.halted :=
  by simp only [dequeueOne]; (repeat' split) <;> simp

@[simp] theorem sendPending_stations  : (sendPending s).stations = s.stations :=
  by simp only [sendPending]; (repeat' split) <;> simp
@[simp] theorem sendPending_classifier  : (sendPending s).classifier = s.classifier :=
  by simp only [sendPending]; (repeat' split) <;> simp
@[simp] theorem sendPending_map  : (sendPending s).map = s.map := by simp only [sendPending]; (repeat' split) <;> simp
@[simp] theorem sendPending_claims  : (sendPending s).claims = s.claims :=
  by simp only [sendPending]; (repeat' split) <;> simp
@[simp] theorem sendPending_credit  : (sendPending s).credit = s.credit :=
  by simp only [sendPending]; (repeat' split) <;> simp
@[simp] theorem sendPending_control  : (sendPending s).control = s.control :=
  by simp only [sendPending]; (repeat' split) <;> simp
@[simp] theorem sendPending_tally  : (sendPending s).tally = s.tally :=
  by simp only [sendPending]; (repeat' split) <;> simp
@[simp] theorem sendPending_pending  : (sendPending s).pending = s.pending :=
  by simp only [sendPending]; (repeat' split) <;> simp
@[simp] theorem sendPending_chain_nodes  : (sendPending s).chain.nodes = s.chain.nodes :=
  by simp only [sendPending]; (repeat' split) <;> simp
@[simp] theorem sendPending_chain_mode  : (sendPending s).chain.mode = s.chain.mode :=
  by simp only [sendPending]; (repeat' split) <;> simp
@[simp] theorem sendPending_chain_replyTimeout  : (sendPending s).chain.replyTimeout = s.chain.replyTimeout :=
  by simp only [sendPending]; (repeat' split) <;> simp
@[simp] theorem sendPending_chain_census  : (sendPending s).chain.census = s.chain.census :=
  by simp only [sendPending]; (repeat' split) <;> simp
@[simp] theorem sendPending_chain_halted  : (sendPending s).chain.halted = s.chain.halted :=
  by simp only [sendPending]; (repeat' split) <;> simp

@[simp] theorem sendProbe_stations (requestTag : Byte) (pass : ChainEnd) (q : Position) : (sendProbe requestTag pass q s).stations = s.stations :=
  by simp [sendProbe]
@[simp] theorem sendProbe_classifier (requestTag : Byte) (pass : ChainEnd) (q : Position) : (sendProbe requestTag pass q s).classifier = s.classifier :=
  by simp [sendProbe]
@[simp] theorem sendProbe_map (requestTag : Byte) (pass : ChainEnd) (q : Position) : (sendProbe requestTag pass q s).map = s.map :=
  by simp [sendProbe]
@[simp] theorem sendProbe_claims (requestTag : Byte) (pass : ChainEnd) (q : Position) : (sendProbe requestTag pass q s).claims = s.claims :=
  by simp [sendProbe]
@[simp] theorem sendProbe_credit (requestTag : Byte) (pass : ChainEnd) (q : Position) : (sendProbe requestTag pass q s).credit = s.credit :=
  by simp [sendProbe]
@[simp] theorem sendProbe_control (requestTag : Byte) (pass : ChainEnd) (q : Position) : (sendProbe requestTag pass q s).control = s.control :=
  by simp [sendProbe]
@[simp] theorem sendProbe_tally (requestTag : Byte) (pass : ChainEnd) (q : Position) : (sendProbe requestTag pass q s).tally = s.tally :=
  by simp [sendProbe]
@[simp] theorem sendProbe_pending (requestTag : Byte) (pass : ChainEnd) (q : Position) : (sendProbe requestTag pass q s).pending = s.pending :=
  by simp [sendProbe]
@[simp] theorem sendProbe_chain_nodes (requestTag : Byte) (pass : ChainEnd) (q : Position) : (sendProbe requestTag pass q s).chain.nodes = s.chain.nodes :=
  by simp [sendProbe]
@[simp] theorem sendProbe_chain_mode (requestTag : Byte) (pass : ChainEnd) (q : Position) : (sendProbe requestTag pass q s).chain.mode = s.chain.mode :=
  by simp [sendProbe]
@[simp] theorem sendProbe_chain_replyTimeout (requestTag : Byte) (pass : ChainEnd) (q : Position) : (sendProbe requestTag pass q s).chain.replyTimeout = s.chain.replyTimeout :=
  by simp [sendProbe]
@[simp] theorem sendProbe_chain_tags (requestTag : Byte) (pass : ChainEnd) (q : Position) : (sendProbe requestTag pass q s).chain.tags = s.chain.tags :=
  by simp [sendProbe]
@[simp] theorem sendProbe_chain_slot (requestTag : Byte) (pass : ChainEnd) (q : Position) : (sendProbe requestTag pass q s).chain.slot = s.chain.slot :=
  by simp [sendProbe]
@[simp] theorem sendProbe_chain_halted (requestTag : Byte) (pass : ChainEnd) (q : Position) : (sendProbe requestTag pass q s).chain.halted = s.chain.halted :=
  by simp [sendProbe]
@[simp] theorem sendProbe_framers (requestTag : Byte) (pass : ChainEnd) (q : Position) : (sendProbe requestTag pass q s).framers = s.framers :=
  by simp [sendProbe]
@[simp] theorem sendProbe_areas (requestTag : Byte) (pass : ChainEnd) (q : Position) : (sendProbe requestTag pass q s).areas = s.areas :=
  by simp [sendProbe]
@[simp] theorem sendProbe_reportsLost (requestTag : Byte) (pass : ChainEnd) (q : Position) : (sendProbe requestTag pass q s).reportsLost = s.reportsLost :=
  by simp [sendProbe]

@[simp] theorem finishCensus_stations (requestTag : Byte) : (finishCensus requestTag s).stations = s.stations :=
  by simp [finishCensus]
@[simp] theorem finishCensus_classifier (requestTag : Byte) : (finishCensus requestTag s).classifier = s.classifier :=
  by simp [finishCensus]
@[simp] theorem finishCensus_map (requestTag : Byte) : (finishCensus requestTag s).map = s.map :=
  by simp [finishCensus]
@[simp] theorem finishCensus_claims (requestTag : Byte) : (finishCensus requestTag s).claims = s.claims :=
  by simp [finishCensus]
@[simp] theorem finishCensus_credit (requestTag : Byte) : (finishCensus requestTag s).credit = s.credit :=
  by simp [finishCensus]
@[simp] theorem finishCensus_control (requestTag : Byte) : (finishCensus requestTag s).control = s.control :=
  by simp [finishCensus]
@[simp] theorem finishCensus_tally (requestTag : Byte) : (finishCensus requestTag s).tally = s.tally :=
  by simp [finishCensus]
@[simp] theorem finishCensus_pending (requestTag : Byte) : (finishCensus requestTag s).pending = s.pending :=
  by simp [finishCensus]
@[simp] theorem finishCensus_chain_mode (requestTag : Byte) : (finishCensus requestTag s).chain.mode = s.chain.mode :=
  by simp [finishCensus]
@[simp] theorem finishCensus_chain_replyTimeout (requestTag : Byte) : (finishCensus requestTag s).chain.replyTimeout = s.chain.replyTimeout :=
  by simp [finishCensus]
@[simp] theorem finishCensus_chain_tags (requestTag : Byte) : (finishCensus requestTag s).chain.tags = s.chain.tags :=
  by simp [finishCensus]
@[simp] theorem finishCensus_chain_slot (requestTag : Byte) : (finishCensus requestTag s).chain.slot = s.chain.slot :=
  by simp [finishCensus]
@[simp] theorem finishCensus_chain_halted (requestTag : Byte) : (finishCensus requestTag s).chain.halted = s.chain.halted :=
  by simp [finishCensus]

@[simp] theorem continueCensus_stations (c : Census) : (continueCensus c s).stations = s.stations :=
  by simp only [continueCensus]; (repeat' split) <;> simp
@[simp] theorem continueCensus_classifier (c : Census) : (continueCensus c s).classifier = s.classifier :=
  by simp only [continueCensus]; (repeat' split) <;> simp
@[simp] theorem continueCensus_map (c : Census) : (continueCensus c s).map = s.map :=
  by simp only [continueCensus]; (repeat' split) <;> simp
@[simp] theorem continueCensus_claims (c : Census) : (continueCensus c s).claims = s.claims :=
  by simp only [continueCensus]; (repeat' split) <;> simp
@[simp] theorem continueCensus_credit (c : Census) : (continueCensus c s).credit = s.credit :=
  by simp only [continueCensus]; (repeat' split) <;> simp
@[simp] theorem continueCensus_control (c : Census) : (continueCensus c s).control = s.control :=
  by simp only [continueCensus]; (repeat' split) <;> simp
@[simp] theorem continueCensus_tally (c : Census) : (continueCensus c s).tally = s.tally :=
  by simp only [continueCensus]; (repeat' split) <;> simp
@[simp] theorem continueCensus_pending (c : Census) : (continueCensus c s).pending = s.pending :=
  by simp only [continueCensus]; (repeat' split) <;> simp
@[simp] theorem continueCensus_chain_mode (c : Census) : (continueCensus c s).chain.mode = s.chain.mode :=
  by simp only [continueCensus]; (repeat' split) <;> simp
@[simp] theorem continueCensus_chain_replyTimeout (c : Census) : (continueCensus c s).chain.replyTimeout = s.chain.replyTimeout :=
  by simp only [continueCensus]; (repeat' split) <;> simp
@[simp] theorem continueCensus_chain_tags (c : Census) : (continueCensus c s).chain.tags = s.chain.tags :=
  by simp only [continueCensus]; (repeat' split) <;> simp
@[simp] theorem continueCensus_chain_slot (c : Census) : (continueCensus c s).chain.slot = s.chain.slot :=
  by simp only [continueCensus]; (repeat' split) <;> simp
@[simp] theorem continueCensus_chain_halted (c : Census) : (continueCensus c s).chain.halted = s.chain.halted :=
  by simp only [continueCensus]; (repeat' split) <;> simp

@[simp] theorem deliverSense_stations (q : Position) (code : Byte) : (deliverSense q code s).stations = s.stations :=
  by simp only [deliverSense]; (repeat' split) <;> simp
@[simp] theorem deliverSense_classifier (q : Position) (code : Byte) : (deliverSense q code s).classifier = s.classifier :=
  by simp only [deliverSense]; (repeat' split) <;> simp
@[simp] theorem deliverSense_map (q : Position) (code : Byte) : (deliverSense q code s).map = s.map :=
  by simp only [deliverSense]; (repeat' split) <;> simp
@[simp] theorem deliverSense_claims (q : Position) (code : Byte) : (deliverSense q code s).claims = s.claims :=
  by simp only [deliverSense]; (repeat' split) <;> simp
@[simp] theorem deliverSense_credit (q : Position) (code : Byte) : (deliverSense q code s).credit = s.credit :=
  by simp only [deliverSense]; (repeat' split) <;> simp
@[simp] theorem deliverSense_chain (q : Position) (code : Byte) : (deliverSense q code s).chain = s.chain :=
  by simp only [deliverSense]; (repeat' split) <;> simp
@[simp] theorem deliverSense_control (q : Position) (code : Byte) : (deliverSense q code s).control = s.control :=
  by simp only [deliverSense]; (repeat' split) <;> simp
@[simp] theorem deliverSense_pending (q : Position) (code : Byte) : (deliverSense q code s).pending = s.pending :=
  by simp only [deliverSense]; (repeat' split) <;> simp
@[simp] theorem deliverSense_framers (q : Position) (code : Byte) : (deliverSense q code s).framers = s.framers :=
  by simp only [deliverSense]; (repeat' split) <;> simp
@[simp] theorem deliverSense_areas (q : Position) (code : Byte) : (deliverSense q code s).areas = s.areas :=
  by simp only [deliverSense]; (repeat' split) <;> simp
@[simp] theorem deliverSense_reportsLost (q : Position) (code : Byte) : (deliverSense q code s).reportsLost = s.reportsLost :=
  by simp only [deliverSense]; (repeat' split) <;> simp

@[simp] theorem takeReply_stations (q : Position) (tag status : Byte) (value : BitVec 16) : (takeReply q tag status value s).stations = s.stations :=
  by simp only [takeReply]; (repeat' split) <;> simp
@[simp] theorem takeReply_classifier (q : Position) (tag status : Byte) (value : BitVec 16) : (takeReply q tag status value s).classifier = s.classifier :=
  by simp only [takeReply]; (repeat' split) <;> simp
@[simp] theorem takeReply_map (q : Position) (tag status : Byte) (value : BitVec 16) : (takeReply q tag status value s).map = s.map :=
  by simp only [takeReply]; (repeat' split) <;> simp
@[simp] theorem takeReply_claims (q : Position) (tag status : Byte) (value : BitVec 16) : (takeReply q tag status value s).claims = s.claims :=
  by simp only [takeReply]; (repeat' split) <;> simp
@[simp] theorem takeReply_credit (q : Position) (tag status : Byte) (value : BitVec 16) : (takeReply q tag status value s).credit = s.credit :=
  by simp only [takeReply]; (repeat' split) <;> simp
@[simp] theorem takeReply_control (q : Position) (tag status : Byte) (value : BitVec 16) : (takeReply q tag status value s).control = s.control :=
  by simp only [takeReply]; (repeat' split) <;> simp
@[simp] theorem takeReply_tally (q : Position) (tag status : Byte) (value : BitVec 16) : (takeReply q tag status value s).tally = s.tally :=
  by simp only [takeReply]; (repeat' split) <;> simp
@[simp] theorem takeReply_pending (q : Position) (tag status : Byte) (value : BitVec 16) : (takeReply q tag status value s).pending = s.pending :=
  by simp only [takeReply]; (repeat' split) <;> simp
@[simp] theorem takeReply_chain_mode (q : Position) (tag status : Byte) (value : BitVec 16) : (takeReply q tag status value s).chain.mode = s.chain.mode :=
  by simp only [takeReply]; (repeat' split) <;> simp
@[simp] theorem takeReply_chain_replyTimeout (q : Position) (tag status : Byte) (value : BitVec 16) : (takeReply q tag status value s).chain.replyTimeout = s.chain.replyTimeout :=
  by simp only [takeReply]; (repeat' split) <;> simp
@[simp] theorem takeReply_chain_slot (q : Position) (tag status : Byte) (value : BitVec 16) : (takeReply q tag status value s).chain.slot = s.chain.slot :=
  by simp only [takeReply]; (repeat' split) <;> simp
@[simp] theorem takeReply_chain_census (q : Position) (tag status : Byte) (value : BitVec 16) : (takeReply q tag status value s).chain.census = s.chain.census :=
  by simp only [takeReply]; (repeat' split) <;> simp
@[simp] theorem takeReply_chain_halted (q : Position) (tag status : Byte) (value : BitVec 16) : (takeReply q tag status value s).chain.halted = s.chain.halted :=
  by simp only [takeReply]; (repeat' split) <;> simp
@[simp] theorem takeReply_chain_sideA (q : Position) (tag status : Byte) (value : BitVec 16) : (takeReply q tag status value s).chain.sideA = s.chain.sideA :=
  by simp only [takeReply]; (repeat' split) <;> simp
@[simp] theorem takeReply_chain_sideB (q : Position) (tag status : Byte) (value : BitVec 16) : (takeReply q tag status value s).chain.sideB = s.chain.sideB :=
  by simp only [takeReply]; (repeat' split) <;> simp

@[simp] theorem takeSense_stations (q : Position) (code : Byte) : (takeSense q code s).stations = s.stations :=
  by simp only [takeSense]; (repeat' split) <;> simp
@[simp] theorem takeSense_classifier (q : Position) (code : Byte) : (takeSense q code s).classifier = s.classifier :=
  by simp only [takeSense]; (repeat' split) <;> simp
@[simp] theorem takeSense_map (q : Position) (code : Byte) : (takeSense q code s).map = s.map :=
  by simp only [takeSense]; (repeat' split) <;> simp
@[simp] theorem takeSense_claims (q : Position) (code : Byte) : (takeSense q code s).claims = s.claims :=
  by simp only [takeSense]; (repeat' split) <;> simp
@[simp] theorem takeSense_credit (q : Position) (code : Byte) : (takeSense q code s).credit = s.credit :=
  by simp only [takeSense]; (repeat' split) <;> simp
@[simp] theorem takeSense_control (q : Position) (code : Byte) : (takeSense q code s).control = s.control :=
  by simp only [takeSense]; (repeat' split) <;> simp
@[simp] theorem takeSense_pending (q : Position) (code : Byte) : (takeSense q code s).pending = s.pending :=
  by simp only [takeSense]; (repeat' split) <;> simp
@[simp] theorem takeSense_chain_mode (q : Position) (code : Byte) : (takeSense q code s).chain.mode = s.chain.mode :=
  by simp only [takeSense]; (repeat' split) <;> simp
@[simp] theorem takeSense_chain_replyTimeout (q : Position) (code : Byte) : (takeSense q code s).chain.replyTimeout = s.chain.replyTimeout :=
  by simp only [takeSense]; (repeat' split) <;> simp
@[simp] theorem takeSense_chain_tags (q : Position) (code : Byte) : (takeSense q code s).chain.tags = s.chain.tags :=
  by simp only [takeSense]; (repeat' split) <;> simp
@[simp] theorem takeSense_chain_slot (q : Position) (code : Byte) : (takeSense q code s).chain.slot = s.chain.slot :=
  by simp only [takeSense]; (repeat' split) <;> simp
@[simp] theorem takeSense_chain_census (q : Position) (code : Byte) : (takeSense q code s).chain.census = s.chain.census :=
  by simp only [takeSense]; (repeat' split) <;> simp
@[simp] theorem takeSense_chain_halted (q : Position) (code : Byte) : (takeSense q code s).chain.halted = s.chain.halted :=
  by simp only [takeSense]; (repeat' split) <;> simp
@[simp] theorem takeSense_chain_sideA (q : Position) (code : Byte) : (takeSense q code s).chain.sideA = s.chain.sideA :=
  by simp only [takeSense]; (repeat' split) <;> simp
@[simp] theorem takeSense_chain_sideB (q : Position) (code : Byte) : (takeSense q code s).chain.sideB = s.chain.sideB :=
  by simp only [takeSense]; (repeat' split) <;> simp

@[simp] theorem takeProbeReply_stations (e : ChainEnd) (q : Position) (kind : NodeKind) : (takeProbeReply e q kind s).stations = s.stations :=
  by simp only [takeProbeReply]; (repeat' split) <;> simp
@[simp] theorem takeProbeReply_classifier (e : ChainEnd) (q : Position) (kind : NodeKind) : (takeProbeReply e q kind s).classifier = s.classifier :=
  by simp only [takeProbeReply]; (repeat' split) <;> simp
@[simp] theorem takeProbeReply_map (e : ChainEnd) (q : Position) (kind : NodeKind) : (takeProbeReply e q kind s).map = s.map :=
  by simp only [takeProbeReply]; (repeat' split) <;> simp
@[simp] theorem takeProbeReply_claims (e : ChainEnd) (q : Position) (kind : NodeKind) : (takeProbeReply e q kind s).claims = s.claims :=
  by simp only [takeProbeReply]; (repeat' split) <;> simp
@[simp] theorem takeProbeReply_credit (e : ChainEnd) (q : Position) (kind : NodeKind) : (takeProbeReply e q kind s).credit = s.credit :=
  by simp only [takeProbeReply]; (repeat' split) <;> simp
@[simp] theorem takeProbeReply_control (e : ChainEnd) (q : Position) (kind : NodeKind) : (takeProbeReply e q kind s).control = s.control :=
  by simp only [takeProbeReply]; (repeat' split) <;> simp
@[simp] theorem takeProbeReply_tally (e : ChainEnd) (q : Position) (kind : NodeKind) : (takeProbeReply e q kind s).tally = s.tally :=
  by simp only [takeProbeReply]; (repeat' split) <;> simp
@[simp] theorem takeProbeReply_pending (e : ChainEnd) (q : Position) (kind : NodeKind) : (takeProbeReply e q kind s).pending = s.pending :=
  by simp only [takeProbeReply]; (repeat' split) <;> simp
@[simp] theorem takeProbeReply_chain_mode (e : ChainEnd) (q : Position) (kind : NodeKind) : (takeProbeReply e q kind s).chain.mode = s.chain.mode :=
  by simp only [takeProbeReply]; (repeat' split) <;> simp
@[simp] theorem takeProbeReply_chain_replyTimeout (e : ChainEnd) (q : Position) (kind : NodeKind) : (takeProbeReply e q kind s).chain.replyTimeout = s.chain.replyTimeout :=
  by simp only [takeProbeReply]; (repeat' split) <;> simp
@[simp] theorem takeProbeReply_chain_tags (e : ChainEnd) (q : Position) (kind : NodeKind) : (takeProbeReply e q kind s).chain.tags = s.chain.tags :=
  by simp only [takeProbeReply]; (repeat' split) <;> simp
@[simp] theorem takeProbeReply_chain_slot (e : ChainEnd) (q : Position) (kind : NodeKind) : (takeProbeReply e q kind s).chain.slot = s.chain.slot :=
  by simp only [takeProbeReply]; (repeat' split) <;> simp
@[simp] theorem takeProbeReply_chain_halted (e : ChainEnd) (q : Position) (kind : NodeKind) : (takeProbeReply e q kind s).chain.halted = s.chain.halted :=
  by simp only [takeProbeReply]; (repeat' split) <;> simp

@[simp] theorem abandonProbe_stations (e : ChainEnd) : (abandonProbe e s).stations = s.stations :=
  by simp only [abandonProbe]; (repeat' split) <;> simp
@[simp] theorem abandonProbe_classifier (e : ChainEnd) : (abandonProbe e s).classifier = s.classifier :=
  by simp only [abandonProbe]; (repeat' split) <;> simp
@[simp] theorem abandonProbe_map (e : ChainEnd) : (abandonProbe e s).map = s.map :=
  by simp only [abandonProbe]; (repeat' split) <;> simp
@[simp] theorem abandonProbe_claims (e : ChainEnd) : (abandonProbe e s).claims = s.claims :=
  by simp only [abandonProbe]; (repeat' split) <;> simp
@[simp] theorem abandonProbe_credit (e : ChainEnd) : (abandonProbe e s).credit = s.credit :=
  by simp only [abandonProbe]; (repeat' split) <;> simp
@[simp] theorem abandonProbe_control (e : ChainEnd) : (abandonProbe e s).control = s.control :=
  by simp only [abandonProbe]; (repeat' split) <;> simp
@[simp] theorem abandonProbe_tally (e : ChainEnd) : (abandonProbe e s).tally = s.tally :=
  by simp only [abandonProbe]; (repeat' split) <;> simp
@[simp] theorem abandonProbe_pending (e : ChainEnd) : (abandonProbe e s).pending = s.pending :=
  by simp only [abandonProbe]; (repeat' split) <;> simp
@[simp] theorem abandonProbe_chain_mode (e : ChainEnd) : (abandonProbe e s).chain.mode = s.chain.mode :=
  by simp only [abandonProbe]; (repeat' split) <;> simp
@[simp] theorem abandonProbe_chain_replyTimeout (e : ChainEnd) : (abandonProbe e s).chain.replyTimeout = s.chain.replyTimeout :=
  by simp only [abandonProbe]; (repeat' split) <;> simp
@[simp] theorem abandonProbe_chain_tags (e : ChainEnd) : (abandonProbe e s).chain.tags = s.chain.tags :=
  by simp only [abandonProbe]; (repeat' split) <;> simp
@[simp] theorem abandonProbe_chain_slot (e : ChainEnd) : (abandonProbe e s).chain.slot = s.chain.slot :=
  by simp only [abandonProbe]; (repeat' split) <;> simp
@[simp] theorem abandonProbe_chain_halted (e : ChainEnd) : (abandonProbe e s).chain.halted = s.chain.halted :=
  by simp only [abandonProbe]; (repeat' split) <;> simp

@[simp] theorem resendHalt_stations (e : ChainEnd) : (resendHalt e s).stations = s.stations :=
  by simp only [resendHalt]; (repeat' split) <;> simp
@[simp] theorem resendHalt_classifier (e : ChainEnd) : (resendHalt e s).classifier = s.classifier :=
  by simp only [resendHalt]; (repeat' split) <;> simp
@[simp] theorem resendHalt_map (e : ChainEnd) : (resendHalt e s).map = s.map :=
  by simp only [resendHalt]; (repeat' split) <;> simp
@[simp] theorem resendHalt_claims (e : ChainEnd) : (resendHalt e s).claims = s.claims :=
  by simp only [resendHalt]; (repeat' split) <;> simp
@[simp] theorem resendHalt_credit (e : ChainEnd) : (resendHalt e s).credit = s.credit :=
  by simp only [resendHalt]; (repeat' split) <;> simp
@[simp] theorem resendHalt_control (e : ChainEnd) : (resendHalt e s).control = s.control :=
  by simp only [resendHalt]; (repeat' split) <;> simp
@[simp] theorem resendHalt_tally (e : ChainEnd) : (resendHalt e s).tally = s.tally :=
  by simp only [resendHalt]; (repeat' split) <;> simp
@[simp] theorem resendHalt_pending (e : ChainEnd) : (resendHalt e s).pending = s.pending :=
  by simp only [resendHalt]; (repeat' split) <;> simp
@[simp] theorem resendHalt_chain_nodes (e : ChainEnd) : (resendHalt e s).chain.nodes = s.chain.nodes :=
  by simp only [resendHalt]; (repeat' split) <;> simp
@[simp] theorem resendHalt_chain_mode (e : ChainEnd) : (resendHalt e s).chain.mode = s.chain.mode :=
  by simp only [resendHalt]; (repeat' split) <;> simp
@[simp] theorem resendHalt_chain_replyTimeout (e : ChainEnd) : (resendHalt e s).chain.replyTimeout = s.chain.replyTimeout :=
  by simp only [resendHalt]; (repeat' split) <;> simp
@[simp] theorem resendHalt_chain_tags (e : ChainEnd) : (resendHalt e s).chain.tags = s.chain.tags :=
  by simp only [resendHalt]; (repeat' split) <;> simp
@[simp] theorem resendHalt_chain_slot (e : ChainEnd) : (resendHalt e s).chain.slot = s.chain.slot :=
  by simp only [resendHalt]; (repeat' split) <;> simp
@[simp] theorem resendHalt_chain_census (e : ChainEnd) : (resendHalt e s).chain.census = s.chain.census :=
  by simp only [resendHalt]; (repeat' split) <;> simp
@[simp] theorem resendHalt_chain_halted (e : ChainEnd) : (resendHalt e s).chain.halted = s.chain.halted :=
  by simp only [resendHalt]; (repeat' split) <;> simp
@[simp] theorem resendHalt_framers (e : ChainEnd) : (resendHalt e s).framers = s.framers :=
  by simp only [resendHalt]; (repeat' split) <;> simp
@[simp] theorem resendHalt_areas (e : ChainEnd) : (resendHalt e s).areas = s.areas :=
  by simp only [resendHalt]; (repeat' split) <;> simp
@[simp] theorem resendHalt_reportsLost (e : ChainEnd) : (resendHalt e s).reportsLost = s.reportsLost :=
  by simp only [resendHalt]; (repeat' split) <;> simp

@[simp] theorem resetChainEnd_stations (e : ChainEnd) : (resetChainEnd e s).stations = s.stations :=
  by simp [resetChainEnd]
@[simp] theorem resetChainEnd_classifier (e : ChainEnd) : (resetChainEnd e s).classifier = s.classifier :=
  by simp [resetChainEnd]
@[simp] theorem resetChainEnd_map (e : ChainEnd) : (resetChainEnd e s).map = s.map := by simp [resetChainEnd]
@[simp] theorem resetChainEnd_claims (e : ChainEnd) : (resetChainEnd e s).claims = s.claims := by simp [resetChainEnd]
@[simp] theorem resetChainEnd_credit (e : ChainEnd) : (resetChainEnd e s).credit = s.credit := by simp [resetChainEnd]
@[simp] theorem resetChainEnd_control (e : ChainEnd) : (resetChainEnd e s).control = s.control :=
  by simp [resetChainEnd]
@[simp] theorem resetChainEnd_tally (e : ChainEnd) : (resetChainEnd e s).tally = s.tally := by simp [resetChainEnd]
@[simp] theorem resetChainEnd_pending (e : ChainEnd) : (resetChainEnd e s).pending = s.pending :=
  by simp [resetChainEnd]
@[simp] theorem resetChainEnd_chain_mode (e : ChainEnd) : (resetChainEnd e s).chain.mode = s.chain.mode :=
  by simp [resetChainEnd]
@[simp] theorem resetChainEnd_chain_replyTimeout (e : ChainEnd) : (resetChainEnd e s).chain.replyTimeout = s.chain.replyTimeout :=
  by simp [resetChainEnd]
@[simp] theorem resetChainEnd_chain_slot (e : ChainEnd) : (resetChainEnd e s).chain.slot = s.chain.slot :=
  by simp [resetChainEnd]
@[simp] theorem resetChainEnd_chain_halted (e : ChainEnd) : (resetChainEnd e s).chain.halted = s.chain.halted :=
  by simp [resetChainEnd]

@[simp] theorem resetNode_stations (q : Position) : (resetNode q s).stations = s.stations :=
  by simp only [resetNode]; (repeat' split) <;> simp
@[simp] theorem resetNode_classifier (q : Position) : (resetNode q s).classifier = s.classifier :=
  by simp only [resetNode]; (repeat' split) <;> simp
@[simp] theorem resetNode_map (q : Position) : (resetNode q s).map = s.map :=
  by simp only [resetNode]; (repeat' split) <;> simp
@[simp] theorem resetNode_claims (q : Position) : (resetNode q s).claims = s.claims :=
  by simp only [resetNode]; (repeat' split) <;> simp
@[simp] theorem resetNode_credit (q : Position) : (resetNode q s).credit = s.credit :=
  by simp only [resetNode]; (repeat' split) <;> simp
@[simp] theorem resetNode_control (q : Position) : (resetNode q s).control = s.control :=
  by simp only [resetNode]; (repeat' split) <;> simp
@[simp] theorem resetNode_tally (q : Position) : (resetNode q s).tally = s.tally :=
  by simp only [resetNode]; (repeat' split) <;> simp
@[simp] theorem resetNode_pending (q : Position) : (resetNode q s).pending = s.pending :=
  by simp only [resetNode]; (repeat' split) <;> simp
@[simp] theorem resetNode_chain_mode (q : Position) : (resetNode q s).chain.mode = s.chain.mode :=
  by simp only [resetNode]; (repeat' split) <;> simp
@[simp] theorem resetNode_chain_replyTimeout (q : Position) : (resetNode q s).chain.replyTimeout = s.chain.replyTimeout :=
  by simp only [resetNode]; (repeat' split) <;> simp
@[simp] theorem resetNode_chain_slot (q : Position) : (resetNode q s).chain.slot = s.chain.slot :=
  by simp only [resetNode]; (repeat' split) <;> simp
@[simp] theorem resetNode_chain_census (q : Position) : (resetNode q s).chain.census = s.chain.census :=
  by simp only [resetNode]; (repeat' split) <;> simp
@[simp] theorem resetNode_chain_halted (q : Position) : (resetNode q s).chain.halted = s.chain.halted :=
  by simp only [resetNode]; (repeat' split) <;> simp

@[simp] theorem chainEntry_stations (old new : Phase) : (chainEntry old new s).stations = s.stations :=
  by simp only [chainEntry]; (repeat' split) <;> simp
@[simp] theorem chainEntry_classifier (old new : Phase) : (chainEntry old new s).classifier = s.classifier :=
  by simp only [chainEntry]; (repeat' split) <;> simp
@[simp] theorem chainEntry_map (old new : Phase) : (chainEntry old new s).map = s.map :=
  by simp only [chainEntry]; (repeat' split) <;> simp
@[simp] theorem chainEntry_claims (old new : Phase) : (chainEntry old new s).claims = s.claims :=
  by simp only [chainEntry]; (repeat' split) <;> simp
@[simp] theorem chainEntry_credit (old new : Phase) : (chainEntry old new s).credit = s.credit :=
  by simp only [chainEntry]; (repeat' split) <;> simp
@[simp] theorem chainEntry_control (old new : Phase) : (chainEntry old new s).control = s.control :=
  by simp only [chainEntry]; (repeat' split) <;> simp
@[simp] theorem chainEntry_tally (old new : Phase) : (chainEntry old new s).tally = s.tally :=
  by simp only [chainEntry]; (repeat' split) <;> simp
@[simp] theorem chainEntry_pending (old new : Phase) : (chainEntry old new s).pending = s.pending :=
  by simp only [chainEntry]; (repeat' split) <;> simp
@[simp] theorem chainEntry_chain_nodes (old new : Phase) : (chainEntry old new s).chain.nodes = s.chain.nodes :=
  by simp only [chainEntry]; (repeat' split) <;> simp
@[simp] theorem chainEntry_chain_mode (old new : Phase) : (chainEntry old new s).chain.mode = s.chain.mode :=
  by simp only [chainEntry]; (repeat' split) <;> simp
@[simp] theorem chainEntry_chain_replyTimeout (old new : Phase) : (chainEntry old new s).chain.replyTimeout = s.chain.replyTimeout :=
  by simp only [chainEntry]; (repeat' split) <;> simp
@[simp] theorem chainEntry_chain_tags (old new : Phase) : (chainEntry old new s).chain.tags = s.chain.tags :=
  by simp only [chainEntry]; (repeat' split) <;> simp
@[simp] theorem chainEntry_chain_slot (old new : Phase) : (chainEntry old new s).chain.slot = s.chain.slot :=
  by simp only [chainEntry]; (repeat' split) <;> simp
@[simp] theorem chainEntry_chain_census (old new : Phase) : (chainEntry old new s).chain.census = s.chain.census :=
  by simp only [chainEntry]; (repeat' split) <;> simp
@[simp] theorem chainEntry_framers (old new : Phase) : (chainEntry old new s).framers = s.framers :=
  by simp only [chainEntry]; (repeat' split) <;> simp
@[simp] theorem chainEntry_areas (old new : Phase) : (chainEntry old new s).areas = s.areas :=
  by simp only [chainEntry]; (repeat' split) <;> simp
@[simp] theorem chainEntry_reportsLost (old new : Phase) : (chainEntry old new s).reportsLost = s.reportsLost :=
  by simp only [chainEntry]; (repeat' split) <;> simp

/-! ### The tally -/

@[simp] theorem compareRecord_stations (g : GoalSlot) (i : Alliance × Period) : (compareRecord g s i).stations = s.stations :=
  by simp only [compareRecord]; (repeat' split) <;> simp
@[simp] theorem compareRecord_classifier (g : GoalSlot) (i : Alliance × Period) : (compareRecord g s i).classifier = s.classifier :=
  by simp only [compareRecord]; (repeat' split) <;> simp
@[simp] theorem compareRecord_map (g : GoalSlot) (i : Alliance × Period) : (compareRecord g s i).map = s.map :=
  by simp only [compareRecord]; (repeat' split) <;> simp
@[simp] theorem compareRecord_claims (g : GoalSlot) (i : Alliance × Period) : (compareRecord g s i).claims = s.claims :=
  by simp only [compareRecord]; (repeat' split) <;> simp
@[simp] theorem compareRecord_credit (g : GoalSlot) (i : Alliance × Period) : (compareRecord g s i).credit = s.credit :=
  by simp only [compareRecord]; (repeat' split) <;> simp
@[simp] theorem compareRecord_chain (g : GoalSlot) (i : Alliance × Period) : (compareRecord g s i).chain = s.chain :=
  by simp only [compareRecord]; (repeat' split) <;> simp
@[simp] theorem compareRecord_control (g : GoalSlot) (i : Alliance × Period) : (compareRecord g s i).control = s.control :=
  by simp only [compareRecord]; (repeat' split) <;> simp
@[simp] theorem compareRecord_pending (g : GoalSlot) (i : Alliance × Period) : (compareRecord g s i).pending = s.pending :=
  by simp only [compareRecord]; (repeat' split) <;> simp

@[simp] theorem compareGoal_stations (g : GoalSlot) : (compareGoal g s).stations = s.stations :=
  foldl_keeps (fun s => s.stations) (fun s x => by simp) _ _
@[simp] theorem compareGoal_classifier (g : GoalSlot) : (compareGoal g s).classifier = s.classifier :=
  foldl_keeps (fun s => s.classifier) (fun s x => by simp) _ _
@[simp] theorem compareGoal_map (g : GoalSlot) : (compareGoal g s).map = s.map :=
  foldl_keeps (fun s => s.map) (fun s x => by simp) _ _
@[simp] theorem compareGoal_claims (g : GoalSlot) : (compareGoal g s).claims = s.claims :=
  foldl_keeps (fun s => s.claims) (fun s x => by simp) _ _
@[simp] theorem compareGoal_credit (g : GoalSlot) : (compareGoal g s).credit = s.credit :=
  foldl_keeps (fun s => s.credit) (fun s x => by simp) _ _
@[simp] theorem compareGoal_chain (g : GoalSlot) : (compareGoal g s).chain = s.chain :=
  foldl_keeps (fun s => s.chain) (fun s x => by simp) _ _
@[simp] theorem compareGoal_control (g : GoalSlot) : (compareGoal g s).control = s.control :=
  foldl_keeps (fun s => s.control) (fun s x => by simp) _ _
@[simp] theorem compareGoal_pending (g : GoalSlot) : (compareGoal g s).pending = s.pending :=
  foldl_keeps (fun s => s.pending) (fun s x => by simp) _ _

@[simp] theorem compareConfigured_stations (g : GoalSlot) : (compareConfigured s g).stations = s.stations :=
  by simp only [compareConfigured]; (repeat' split) <;> simp
@[simp] theorem compareConfigured_classifier (g : GoalSlot) : (compareConfigured s g).classifier = s.classifier :=
  by simp only [compareConfigured]; (repeat' split) <;> simp
@[simp] theorem compareConfigured_map (g : GoalSlot) : (compareConfigured s g).map = s.map :=
  by simp only [compareConfigured]; (repeat' split) <;> simp
@[simp] theorem compareConfigured_claims (g : GoalSlot) : (compareConfigured s g).claims = s.claims :=
  by simp only [compareConfigured]; (repeat' split) <;> simp
@[simp] theorem compareConfigured_credit (g : GoalSlot) : (compareConfigured s g).credit = s.credit :=
  by simp only [compareConfigured]; (repeat' split) <;> simp
@[simp] theorem compareConfigured_chain (g : GoalSlot) : (compareConfigured s g).chain = s.chain :=
  by simp only [compareConfigured]; (repeat' split) <;> simp
@[simp] theorem compareConfigured_control (g : GoalSlot) : (compareConfigured s g).control = s.control :=
  by simp only [compareConfigured]; (repeat' split) <;> simp
@[simp] theorem compareConfigured_pending (g : GoalSlot) : (compareConfigured s g).pending = s.pending :=
  by simp only [compareConfigured]; (repeat' split) <;> simp

@[simp] theorem settleExpired_stations (g : GoalSlot) : (settleExpired g s).stations = s.stations :=
  by simp [settleExpired]
@[simp] theorem settleExpired_classifier (g : GoalSlot) : (settleExpired g s).classifier = s.classifier :=
  by simp [settleExpired]
@[simp] theorem settleExpired_map (g : GoalSlot) : (settleExpired g s).map = s.map := by simp [settleExpired]
@[simp] theorem settleExpired_claims (g : GoalSlot) : (settleExpired g s).claims = s.claims := by simp [settleExpired]
@[simp] theorem settleExpired_credit (g : GoalSlot) : (settleExpired g s).credit = s.credit := by simp [settleExpired]
@[simp] theorem settleExpired_chain (g : GoalSlot) : (settleExpired g s).chain = s.chain := by simp [settleExpired]
@[simp] theorem settleExpired_control (g : GoalSlot) : (settleExpired g s).control = s.control :=
  by simp [settleExpired]
@[simp] theorem settleExpired_pending (g : GoalSlot) : (settleExpired g s).pending = s.pending :=
  by simp [settleExpired]

@[simp] theorem endFinalSettle_stations  : (endFinalSettle s).stations = s.stations :=
  by
  simp only [endFinalSettle, notice_stations, State.setTally_stations]
  exact (foldl_keeps (fun s => s.stations) (fun s x => by simp) _ _).trans (by simp)
@[simp] theorem endFinalSettle_classifier  : (endFinalSettle s).classifier = s.classifier :=
  by
  simp only [endFinalSettle, notice_classifier, State.setTally_classifier]
  exact (foldl_keeps (fun s => s.classifier) (fun s x => by simp) _ _).trans (by simp)
@[simp] theorem endFinalSettle_map  : (endFinalSettle s).map = s.map :=
  by
  simp only [endFinalSettle, notice_map, State.setTally_map]
  exact (foldl_keeps (fun s => s.map) (fun s x => by simp) _ _).trans (by simp)
@[simp] theorem endFinalSettle_claims  : (endFinalSettle s).claims = s.claims :=
  by
  simp only [endFinalSettle, notice_claims, State.setTally_claims]
  exact (foldl_keeps (fun s => s.claims) (fun s x => by simp) _ _).trans (by simp)
@[simp] theorem endFinalSettle_credit  : (endFinalSettle s).credit = s.credit :=
  by
  simp only [endFinalSettle, notice_credit, State.setTally_credit]
  exact (foldl_keeps (fun s => s.credit) (fun s x => by simp) _ _).trans (by simp)
@[simp] theorem endFinalSettle_chain  : (endFinalSettle s).chain = s.chain :=
  by
  simp only [endFinalSettle, notice_chain, State.setTally_chain]
  exact (foldl_keeps (fun s => s.chain) (fun s x => by simp) _ _).trans (by simp)
@[simp] theorem endFinalSettle_control  : (endFinalSettle s).control = s.control :=
  by
  simp only [endFinalSettle, notice_control, State.setTally_control]
  exact (foldl_keeps (fun s => s.control) (fun s x => by simp) _ _).trans (by simp)
@[simp] theorem endFinalSettle_pending  : (endFinalSettle s).pending = s.pending :=
  by
  simp only [endFinalSettle, notice_pending, State.setTally_pending]
  exact (foldl_keeps (fun s => s.pending) (fun s x => by simp) _ _).trans (by simp)

@[simp] theorem startFinalSettle_stations  : (startFinalSettle s).stations = s.stations :=
  by simp only [startFinalSettle]; (repeat' split) <;> simp
@[simp] theorem startFinalSettle_classifier  : (startFinalSettle s).classifier = s.classifier :=
  by simp only [startFinalSettle]; (repeat' split) <;> simp
@[simp] theorem startFinalSettle_map  : (startFinalSettle s).map = s.map :=
  by simp only [startFinalSettle]; (repeat' split) <;> simp
@[simp] theorem startFinalSettle_claims  : (startFinalSettle s).claims = s.claims :=
  by simp only [startFinalSettle]; (repeat' split) <;> simp
@[simp] theorem startFinalSettle_credit  : (startFinalSettle s).credit = s.credit :=
  by simp only [startFinalSettle]; (repeat' split) <;> simp
@[simp] theorem startFinalSettle_chain  : (startFinalSettle s).chain = s.chain :=
  by simp only [startFinalSettle]; (repeat' split) <;> simp
@[simp] theorem startFinalSettle_control  : (startFinalSettle s).control = s.control :=
  by simp only [startFinalSettle]; (repeat' split) <;> simp
@[simp] theorem startFinalSettle_pending  : (startFinalSettle s).pending = s.pending :=
  by simp only [startFinalSettle]; (repeat' split) <;> simp

@[simp] theorem tallyEntry_stations (new : Phase) : (tallyEntry new s).stations = s.stations :=
  by simp only [tallyEntry]; (repeat' split) <;> simp
@[simp] theorem tallyEntry_classifier (new : Phase) : (tallyEntry new s).classifier = s.classifier :=
  by simp only [tallyEntry]; (repeat' split) <;> simp
@[simp] theorem tallyEntry_map (new : Phase) : (tallyEntry new s).map = s.map :=
  by simp only [tallyEntry]; (repeat' split) <;> simp
@[simp] theorem tallyEntry_claims (new : Phase) : (tallyEntry new s).claims = s.claims :=
  by simp only [tallyEntry]; (repeat' split) <;> simp
@[simp] theorem tallyEntry_credit (new : Phase) : (tallyEntry new s).credit = s.credit :=
  by simp only [tallyEntry]; (repeat' split) <;> simp
@[simp] theorem tallyEntry_chain (new : Phase) : (tallyEntry new s).chain = s.chain :=
  by simp only [tallyEntry]; (repeat' split) <;> simp
@[simp] theorem tallyEntry_control (new : Phase) : (tallyEntry new s).control = s.control :=
  by simp only [tallyEntry]; (repeat' split) <;> simp
@[simp] theorem tallyEntry_pending (new : Phase) : (tallyEntry new s).pending = s.pending :=
  by simp only [tallyEntry]; (repeat' split) <;> simp

/-! ### Phases -/

@[simp] theorem queueEntry_stations (old new : Phase) : (queueEntry old new s).stations = s.stations :=
  by simp only [queueEntry]; (repeat' split) <;> simp
@[simp] theorem queueEntry_classifier (old new : Phase) : (queueEntry old new s).classifier = s.classifier :=
  by simp only [queueEntry]; (repeat' split) <;> simp
@[simp] theorem queueEntry_map (old new : Phase) : (queueEntry old new s).map = s.map :=
  by simp only [queueEntry]; (repeat' split) <;> simp
@[simp] theorem queueEntry_claims (old new : Phase) : (queueEntry old new s).claims = s.claims :=
  by simp only [queueEntry]; (repeat' split) <;> simp
@[simp] theorem queueEntry_credit (old new : Phase) : (queueEntry old new s).credit = s.credit :=
  by simp only [queueEntry]; (repeat' split) <;> simp
@[simp] theorem queueEntry_chain (old new : Phase) : (queueEntry old new s).chain = s.chain :=
  by simp only [queueEntry]; (repeat' split) <;> simp
@[simp] theorem queueEntry_control (old new : Phase) : (queueEntry old new s).control = s.control :=
  by simp only [queueEntry]; (repeat' split) <;> simp
@[simp] theorem queueEntry_tally (old new : Phase) : (queueEntry old new s).tally = s.tally :=
  by simp only [queueEntry]; (repeat' split) <;> simp
@[simp] theorem queueEntry_pending (old new : Phase) : (queueEntry old new s).pending = s.pending :=
  by simp only [queueEntry]; (repeat' split) <;> simp
@[simp] theorem queueEntry_framers (old new : Phase) : (queueEntry old new s).framers = s.framers :=
  by simp only [queueEntry]; (repeat' split) <;> simp
@[simp] theorem queueEntry_reportsLost (old new : Phase) : (queueEntry old new s).reportsLost = s.reportsLost :=
  by simp only [queueEntry]; (repeat' split) <;> simp

@[simp] theorem restartSilence_stations  : (restartSilence s).stations = s.stations := rfl
@[simp] theorem restartSilence_classifier  : (restartSilence s).classifier = s.classifier := rfl
@[simp] theorem restartSilence_map  : (restartSilence s).map = s.map := rfl
@[simp] theorem restartSilence_claims  : (restartSilence s).claims = s.claims := rfl
@[simp] theorem restartSilence_credit  : (restartSilence s).credit = s.credit := rfl
@[simp] theorem restartSilence_chain  : (restartSilence s).chain = s.chain := rfl
@[simp] theorem restartSilence_tally  : (restartSilence s).tally = s.tally := rfl
@[simp] theorem restartSilence_pending  : (restartSilence s).pending = s.pending := rfl
@[simp] theorem restartSilence_framers  : (restartSilence s).framers = s.framers := rfl
@[simp] theorem restartSilence_areas  : (restartSilence s).areas = s.areas := rfl
@[simp] theorem restartSilence_reportsLost  : (restartSilence s).reportsLost = s.reportsLost := rfl

@[simp] theorem mgmtArrives_stations  : (mgmtArrives s).stations = s.stations := rfl
@[simp] theorem mgmtArrives_classifier  : (mgmtArrives s).classifier = s.classifier := rfl
@[simp] theorem mgmtArrives_map  : (mgmtArrives s).map = s.map := rfl
@[simp] theorem mgmtArrives_claims  : (mgmtArrives s).claims = s.claims := rfl
@[simp] theorem mgmtArrives_credit  : (mgmtArrives s).credit = s.credit := rfl
@[simp] theorem mgmtArrives_chain  : (mgmtArrives s).chain = s.chain := rfl
@[simp] theorem mgmtArrives_tally  : (mgmtArrives s).tally = s.tally := rfl
@[simp] theorem mgmtArrives_pending  : (mgmtArrives s).pending = s.pending := rfl
@[simp] theorem mgmtArrives_areas  : (mgmtArrives s).areas = s.areas := rfl
@[simp] theorem mgmtArrives_reportsLost  : (mgmtArrives s).reportsLost = s.reportsLost := rfl

@[simp] theorem enterPhase_classifier (new : Phase) (timer : Nat) : (enterPhase new timer s).classifier = s.classifier :=
  by simp [enterPhase]
@[simp] theorem enterPhase_map (new : Phase) (timer : Nat) : (enterPhase new timer s).map = s.map :=
  by simp [enterPhase]
@[simp] theorem enterPhase_pending (new : Phase) (timer : Nat) : (enterPhase new timer s).pending = s.pending :=
  by simp [enterPhase]
@[simp] theorem enterPhase_chain_nodes (new : Phase) (timer : Nat) : (enterPhase new timer s).chain.nodes = s.chain.nodes :=
  by simp [enterPhase]
@[simp] theorem enterPhase_chain_mode (new : Phase) (timer : Nat) : (enterPhase new timer s).chain.mode = s.chain.mode :=
  by simp [enterPhase]
@[simp] theorem enterPhase_chain_replyTimeout (new : Phase) (timer : Nat) : (enterPhase new timer s).chain.replyTimeout = s.chain.replyTimeout :=
  by simp [enterPhase]
@[simp] theorem enterPhase_chain_tags (new : Phase) (timer : Nat) : (enterPhase new timer s).chain.tags = s.chain.tags :=
  by simp [enterPhase]
@[simp] theorem enterPhase_chain_slot (new : Phase) (timer : Nat) : (enterPhase new timer s).chain.slot = s.chain.slot :=
  by simp [enterPhase]
@[simp] theorem enterPhase_chain_census (new : Phase) (timer : Nat) : (enterPhase new timer s).chain.census = s.chain.census :=
  by simp [enterPhase]

theorem passThroughIn_keeps {β : Type} (p : State → β) (h : ∀ new timer s, p (enterPhase new timer s) = p s) (k : Nat) :
    p (passThroughIn k s) = p s := by
  induction k generalizing s with
  | zero => rfl
  | succ k ih =>
    simp only [passThroughIn]; (repeat' split) <;> simp [ih, h]

@[simp] theorem passThrough_classifier  : (passThrough s).classifier = s.classifier :=
  passThroughIn_keeps s (fun s => s.classifier) (fun _ _ _ => by simp) 4
@[simp] theorem passThrough_map  : (passThrough s).map = s.map :=
  passThroughIn_keeps s (fun s => s.map) (fun _ _ _ => by simp) 4
@[simp] theorem passThrough_pending  : (passThrough s).pending = s.pending :=
  passThroughIn_keeps s (fun s => s.pending) (fun _ _ _ => by simp) 4
@[simp] theorem passThrough_chain_nodes  : (passThrough s).chain.nodes = s.chain.nodes :=
  passThroughIn_keeps s (fun s => s.chain.nodes) (fun _ _ _ => by simp) 4
@[simp] theorem passThrough_chain_mode  : (passThrough s).chain.mode = s.chain.mode :=
  passThroughIn_keeps s (fun s => s.chain.mode) (fun _ _ _ => by simp) 4
@[simp] theorem passThrough_chain_replyTimeout  : (passThrough s).chain.replyTimeout = s.chain.replyTimeout :=
  passThroughIn_keeps s (fun s => s.chain.replyTimeout) (fun _ _ _ => by simp) 4
@[simp] theorem passThrough_chain_tags  : (passThrough s).chain.tags = s.chain.tags :=
  passThroughIn_keeps s (fun s => s.chain.tags) (fun _ _ _ => by simp) 4
@[simp] theorem passThrough_chain_slot  : (passThrough s).chain.slot = s.chain.slot :=
  passThroughIn_keeps s (fun s => s.chain.slot) (fun _ _ _ => by simp) 4
@[simp] theorem passThrough_chain_census  : (passThrough s).chain.census = s.chain.census :=
  passThroughIn_keeps s (fun s => s.chain.census) (fun _ _ _ => by simp) 4

@[simp] theorem pauseMatch_classifier (r : Running) (cause : PauseCause) : (pauseMatch r cause s).classifier = s.classifier :=
  by simp [pauseMatch]
@[simp] theorem pauseMatch_map (r : Running) (cause : PauseCause) : (pauseMatch r cause s).map = s.map :=
  by simp [pauseMatch]
@[simp] theorem pauseMatch_pending (r : Running) (cause : PauseCause) : (pauseMatch r cause s).pending = s.pending :=
  by simp [pauseMatch]
@[simp] theorem pauseMatch_chain_nodes (r : Running) (cause : PauseCause) : (pauseMatch r cause s).chain.nodes = s.chain.nodes :=
  by simp [pauseMatch]
@[simp] theorem pauseMatch_chain_mode (r : Running) (cause : PauseCause) : (pauseMatch r cause s).chain.mode = s.chain.mode :=
  by simp [pauseMatch]
@[simp] theorem pauseMatch_chain_replyTimeout (r : Running) (cause : PauseCause) : (pauseMatch r cause s).chain.replyTimeout = s.chain.replyTimeout :=
  by simp [pauseMatch]
@[simp] theorem pauseMatch_chain_tags (r : Running) (cause : PauseCause) : (pauseMatch r cause s).chain.tags = s.chain.tags :=
  by simp [pauseMatch]
@[simp] theorem pauseMatch_chain_slot (r : Running) (cause : PauseCause) : (pauseMatch r cause s).chain.slot = s.chain.slot :=
  by simp [pauseMatch]
@[simp] theorem pauseMatch_chain_census (r : Running) (cause : PauseCause) : (pauseMatch r cause s).chain.census = s.chain.census :=
  by simp [pauseMatch]

@[simp] theorem silenceExpired_classifier  : (silenceExpired s).classifier = s.classifier :=
  by simp only [silenceExpired]; (repeat' split) <;> simp
@[simp] theorem silenceExpired_map  : (silenceExpired s).map = s.map :=
  by simp only [silenceExpired]; (repeat' split) <;> simp
@[simp] theorem silenceExpired_pending  : (silenceExpired s).pending = s.pending :=
  by simp only [silenceExpired]; (repeat' split) <;> simp
@[simp] theorem silenceExpired_chain_nodes  : (silenceExpired s).chain.nodes = s.chain.nodes :=
  by simp only [silenceExpired]; (repeat' split) <;> simp
@[simp] theorem silenceExpired_chain_mode  : (silenceExpired s).chain.mode = s.chain.mode :=
  by simp only [silenceExpired]; (repeat' split) <;> simp
@[simp] theorem silenceExpired_chain_replyTimeout  : (silenceExpired s).chain.replyTimeout = s.chain.replyTimeout :=
  by simp only [silenceExpired]; (repeat' split) <;> simp
@[simp] theorem silenceExpired_chain_tags  : (silenceExpired s).chain.tags = s.chain.tags :=
  by simp only [silenceExpired]; (repeat' split) <;> simp
@[simp] theorem silenceExpired_chain_slot  : (silenceExpired s).chain.slot = s.chain.slot :=
  by simp only [silenceExpired]; (repeat' split) <;> simp
@[simp] theorem silenceExpired_chain_census  : (silenceExpired s).chain.census = s.chain.census :=
  by simp only [silenceExpired]; (repeat' split) <;> simp

@[simp] theorem startMatch_classifier  : (startMatch s).classifier = s.classifier := by simp [startMatch]
@[simp] theorem startMatch_map  : (startMatch s).map = s.map := by simp [startMatch]
@[simp] theorem startMatch_pending  : (startMatch s).pending = s.pending := by simp [startMatch]
@[simp] theorem startMatch_chain_nodes  : (startMatch s).chain.nodes = s.chain.nodes := by simp [startMatch]
@[simp] theorem startMatch_chain_mode  : (startMatch s).chain.mode = s.chain.mode := by simp [startMatch]
@[simp] theorem startMatch_chain_replyTimeout  : (startMatch s).chain.replyTimeout = s.chain.replyTimeout :=
  by simp [startMatch]
@[simp] theorem startMatch_chain_tags  : (startMatch s).chain.tags = s.chain.tags := by simp [startMatch]
@[simp] theorem startMatch_chain_slot  : (startMatch s).chain.slot = s.chain.slot := by simp [startMatch]
@[simp] theorem startMatch_chain_census  : (startMatch s).chain.census = s.chain.census := by simp [startMatch]

/-! ### Time -/

@[simp] theorem elapse_framers (n : Nat) : (elapse n s).framers = s.framers := by simp only [elapse]; split <;> rfl
@[simp] theorem elapse_classifier (n : Nat) : (elapse n s).classifier = s.classifier :=
  by simp only [elapse]; split <;> rfl
@[simp] theorem elapse_map (n : Nat) : (elapse n s).map = s.map := by simp only [elapse]; split <;> rfl
@[simp] theorem Credit.ticks_rate (k : Nat) (c : Credit) : (c.ticks k).rate = c.rate := by simp only [Credit.ticks]; split <;> rfl
@[simp] theorem Credit.ticks_burst (k : Nat) (c : Credit) : (c.ticks k).burst = c.burst := by simp only [Credit.ticks]; split <;> rfl
@[simp] theorem elapse_credit_rate (n : Nat) : (elapse n s).credit.rate = s.credit.rate := by simp only [elapse]; split <;> simp [matchTime, realTime]
@[simp] theorem elapse_credit_burst (n : Nat) : (elapse n s).credit.burst = s.credit.burst := by simp only [elapse]; split <;> simp [matchTime, realTime]
@[simp] theorem elapse_areas (n : Nat) : (elapse n s).areas = s.areas := by simp only [elapse]; split <;> rfl
@[simp] theorem elapse_reportsLost (n : Nat) : (elapse n s).reportsLost = s.reportsLost :=
  by simp only [elapse]; split <;> rfl
@[simp] theorem elapse_pending (n : Nat) : (elapse n s).pending = s.pending := by simp only [elapse]; split <;> rfl

@[simp] theorem elapse_chain_nodes (n : Nat) : (elapse n s).chain.nodes = s.chain.nodes := by simp only [elapse]; split <;> rfl
@[simp] theorem elapse_chain_mode (n : Nat) : (elapse n s).chain.mode = s.chain.mode := by simp only [elapse]; split <;> rfl
@[simp] theorem elapse_chain_replyTimeout (n : Nat) : (elapse n s).chain.replyTimeout = s.chain.replyTimeout := by simp only [elapse]; split <;> rfl
@[simp] theorem elapse_chain_slot (n : Nat) : (elapse n s).chain.slot = s.chain.slot := by simp only [elapse]; split <;> rfl
@[simp] theorem elapse_chain_halted (n : Nat) : (elapse n s).chain.halted = s.chain.halted := by simp only [elapse]; split <;> rfl
@[simp] theorem elapse_chain_sideA (n : Nat) : (elapse n s).chain.sideA = s.chain.sideA := by simp only [elapse]; split <;> rfl
@[simp] theorem elapse_chain_sideB (n : Nat) : (elapse n s).chain.sideB = s.chain.sideB := by simp only [elapse]; split <;> rfl
@[simp] theorem elapse_control_phase (n : Nat) : (elapse n s).control.phase = s.control.phase := by simp only [elapse]; split <;> rfl
@[simp] theorem elapse_control_autoLength (n : Nat) : (elapse n s).control.autoLength = s.control.autoLength := by simp only [elapse]; split <;> rfl
@[simp] theorem elapse_control_transitLength (n : Nat) : (elapse n s).control.transitLength = s.control.transitLength := by simp only [elapse]; split <;> rfl
@[simp] theorem elapse_control_driverLength (n : Nat) : (elapse n s).control.driverLength = s.control.driverLength := by simp only [elapse]; split <;> rfl
@[simp] theorem elapse_control_endgameLength (n : Nat) : (elapse n s).control.endgameLength = s.control.endgameLength := by simp only [elapse]; split <;> rfl
@[simp] theorem elapse_control_silenceLimit (n : Nat) : (elapse n s).control.silenceLimit = s.control.silenceLimit := by simp only [elapse]; split <;> rfl
@[simp] theorem elapse_stations_staleLimit (n : Nat) : (elapse n s).stations.staleLimit = s.stations.staleLimit := by simp only [elapse]; split <;> rfl
@[simp] theorem elapse_tally_goals (n : Nat) : (elapse n s).tally.goals = s.tally.goals := by simp only [elapse]; split <;> rfl
@[simp] theorem elapse_tally_records (n : Nat) : (elapse n s).tally.records = s.tally.records := by simp only [elapse]; split <;> rfl
@[simp] theorem elapse_tally_bonus (n : Nat) : (elapse n s).tally.bonus = s.tally.bonus := by simp only [elapse]; split <;> rfl
@[simp] theorem elapse_tally_penalty (n : Nat) : (elapse n s).tally.penalty = s.tally.penalty := by simp only [elapse]; split <;> rfl

end Sys2Proof.Machine
end

