-- ==== Sys2Proof/Laws/Stations.lean ====
section
/-! SUPPORT. What the hold interlock and a change of a station's state do to the station records. -/

namespace Sys2Proof.Machine

/-- The station records differ in held flags alone. -/
def HeldOnly (s t : State) : Prop := ∀ m, t.station m = { s.station m with held := (t.station m).held }

theorem HeldOnly.refl (s : State) : HeldOnly s s := fun _ => rfl

theorem HeldOnly.of_eq {s t : State} (h : t.stations = s.stations) : HeldOnly s t := fun m => by simp [State.station, h]

theorem HeldOnly.trans {s t u : State} (h : HeldOnly s t) (k : HeldOnly t u) : HeldOnly s u := fun m => by
  rw [k m, h m]

theorem HeldOnly.foldl {α : Type} {f : State → α → State} (h : ∀ s x, HeldOnly s (f s x)) (l : List α) (s : State) :
    HeldOnly s (l.foldl f s) := by
  induction l generalizing s with
  | nil => exact .refl s
  | cons x l ih => exact (h s x).trans (ih (f s x))

/-- A record read where the station table is the same. -/
theorem station_congr {s t : State} (h : t.stations = s.stations) (m : StationId) : t.station m = s.station m := by
  simp [State.station, h]

theorem evaluateHold_station (s : State) (n m : StationId) :
    (evaluateHold s n).station m =
      { s.station m with
        held := if m = n ∧ (s.station n).isRobot = true then s.holdCondition n else (s.station m).held } := by
  have key : ∀ b, (s.setStation n { s.station n with held := b }).station m
      = { s.station m with held := if m = n then b else (s.station m).held } := fun b => by
    rw [State.station_setStation]
    by_cases h : m = n
    · subst h; simp
    · simp [h]
  simp only [evaluateHold]
  split
  · next h =>
    rcases Bool.or_eq_true _ _ ▸ h with h | h
    · simp at h; simp [h]
    · by_cases e : m = n ∧ (s.station n).isRobot = true
      · simp only [e, and_self, if_true]
        obtain ⟨rfl, -⟩ := e
        have := eq_of_beq h
        rw [← this]
      · simp [e]
  · next h =>
    have hr : (s.station n).isRobot = true := by
      by_contra c; simp [c] at h
    have e : ∀ t : State, t.stations = (s.setStation n { s.station n with held := s.holdCondition n }).stations →
        t.station m = { s.station m with
          held := if m = n ∧ (s.station n).isRobot = true then s.holdCondition n else (s.station m).held } := fun t ht => by
      rw [station_congr ht m, key, hr]; simp
    apply e
    (repeat' split) <;> simp

theorem HeldOnly.evaluateHold (s : State) (n : StationId) : HeldOnly s (evaluateHold s n) := fun m => by
  rw [evaluateHold_station]

theorem HeldOnly.evaluatePartners (m : StationId) (s : State) : HeldOnly s (evaluatePartners m s) :=
  .foldl (fun s n => by split; exact .evaluateHold s n; exact .refl s) _ _

theorem HeldOnly.evaluateAll (s : State) : HeldOnly s (evaluateAll s) := .foldl .evaluateHold _ _

theorem HeldOnly.clearHeld (s : State) : HeldOnly s (clearHeld s) := fun m => by
  simp [State.station, Machine.clearHeld]

theorem HeldOnly.holdEntry (new : Phase) (s : State) : HeldOnly s (holdEntry new s) := by
  simp only [Machine.holdEntry]; split
  · exact .evaluateAll s
  · exact .clearHeld s

@[simp] theorem clearHeld_held (s : State) (m : StationId) : ((clearHeld s).station m).held = false := by
  simp [State.station, clearHeld]

/-- Outside DRIVER and ENDGAME no robot is to be held (R32). -/
theorem holdCondition_false {s : State} (h : s.control.phase.isDriven = false) (n : StationId) : s.holdCondition n = false := by
  simp [State.holdCondition, h]

/-- Outside DRIVER and ENDGAME an evaluation raises no held flag. -/
theorem evaluateHold_lowers {s : State} (h : s.control.phase.isDriven = false) (n m : StationId)
    (hm : (s.station m).held = false) : ((evaluateHold s n).station m).held = false := by
  rw [evaluateHold_station]; simp only; split
  · exact holdCondition_false h n
  · exact hm

theorem evaluatePartners_lowers {s : State} (h : s.control.phase.isDriven = false) (n m : StationId)
    (hm : (s.station m).held = false) : ((evaluatePartners n s).station m).held = false := by
  unfold evaluatePartners
  generalize List.finRange 32 = l
  induction l generalizing s with
  | nil => exact hm
  | cons x l ih =>
    simp only [List.foldl_cons]
    apply ih
    · split <;> simp [h]
    · split
      · exact evaluateHold_lowers h x m hm
      · exact hm

/-- Departures leave the station table alone, and a change of station n's state writes its record, but for held flags. -/
theorem HeldOnly.changeStation (n : StationId) (x : Station) (arena : Option ArenaNotice) (s : State) :
    HeldOnly (s.setStation n x) (changeStation n x arena s) := by
  simp only [Machine.changeStation]
  refine HeldOnly.trans (.of_eq ?_) (.evaluatePartners n _)
  (repeat' split) <;> simp

theorem changeStation_self (n : StationId) (x : Station) (arena : Option ArenaNotice) (s : State) :
    (changeStation n x arena s).station n = { x with held := ((changeStation n x arena s).station n).held } := by
  have := HeldOnly.changeStation n x arena s n
  rw [State.station_setStation_self] at this
  exact this

theorem changeStation_other {n m : StationId} (h : m ≠ n) (x : Station) (arena : Option ArenaNotice) (s : State) :
    (changeStation n x arena s).station m
      = { s.station m with held := ((changeStation n x arena s).station m).held } := by
  have := HeldOnly.changeStation n x arena s m
  rw [State.station_setStation, if_neg h] at this
  exact this

/-- Outside DRIVER and ENDGAME a change of state raises no held flag. -/
theorem changeStation_lowers {s : State} (h : s.control.phase.isDriven = false) (n m : StationId) (x : Station)
    (arena : Option ArenaNotice) (hm : ((s.setStation n x).station m).held = false) :
    ((changeStation n x arena s).station m).held = false := by
  simp only [changeStation]
  apply evaluatePartners_lowers
  · (repeat' split) <;> simp [h]
  · rw [station_congr (s := s.setStation n x)]
    · exact hm
    · (repeat' split) <;> simp

end Sys2Proof.Machine
end

