-- ==== Sys2Proof/Laws/Requests.lean ====
section
/-! SUPPORT. Requests: how one is taken, which parts of the state each block's part of it leaves alone, and that a request
refused has changed nothing. -/

namespace Sys2Proof.Machine

variable (s : State)

@[simp] theorem done_state (data : List Byte) : (done s data).state = s := rfl
@[simp] theorem done_result (data : List Byte) : (done s data).result = .ok := rfl
@[simp] theorem refuse_state (r : Result) : (refuse r s).state = s := rfl
@[simp] theorem refuse_result (r : Result) : (refuse r s).result = r := rfl
@[simp] theorem refuse_data (r : Result) : (refuse r s).data = [] := rfl
@[simp] theorem accepted_state : (accepted s).state = s := rfl
@[simp] theorem accepted_result : (accepted s).result = .accepted := rfl
@[simp] theorem restartSilence_control_phase : (restartSilence s).control.phase = s.control.phase := rfl
@[simp] theorem restartSilence_control_timer : (restartSilence s).control.timer = s.control.timer := rfl
@[simp] theorem mgmtArrives_control_phase : (mgmtArrives s).control.phase = s.control.phase := rfl
@[simp] theorem mgmtArrives_control_timer : (mgmtArrives s).control.timer = s.control.timer := rfl
@[simp] theorem mgmtArrives_station (n : StationId) : (mgmtArrives s).station n = s.station n := rfl
@[simp] theorem mgmtArrives_rule (i : RuleIx) : (mgmtArrives s).rule i = s.rule i := rfl
@[simp] theorem mgmtArrives_claim (q : Position) : (mgmtArrives s).claim q = s.claim q := rfl
@[simp] theorem mgmtArrives_balance (n : StationId) : (mgmtArrives s).balance n = s.balance n := rfl
@[simp] theorem mgmtArrives_area (a : AreaId) : (mgmtArrives s).area a = s.area a := rfl
@[simp] theorem mgmtArrives_node (q : Position) : (mgmtArrives s).node q = s.node q := rfl
@[simp] theorem mgmtArrives_tag (t : TagId) : (mgmtArrives s).tag t = s.tag t := rfl
@[simp] theorem mgmtArrives_goal (g : GoalSlot) : (mgmtArrives s).goal g = s.goal g := rfl
@[simp] theorem mgmtArrives_profile (q : Position) : (mgmtArrives s).profile q = s.profile q := rfl
@[simp] theorem mgmtArrives_record (g : GoalSlot) (a : Alliance) (p : Period) : (mgmtArrives s).record g a p = s.record g a p := rfl
@[simp] theorem mgmtArrives_side (e : ChainEnd) : (mgmtArrives s).side e = s.side e := by cases e <;> rfl
@[simp] theorem mgmtArrives_freeTag : (mgmtArrives s).freeTag = s.freeTag := rfl

/-! ### The catalogue -/

@[simp] theorem argumentLength_readStatus : argumentLength 0x01 = some 0 := rfl
@[simp] theorem argumentLength_keepalive : argumentLength 0x02 = some 0 := rfl
@[simp] theorem argumentLength_fullReset : argumentLength 0x03 = some 0 := rfl
@[simp] theorem argumentLength_fieldReset : argumentLength 0x04 = some 0 := rfl
@[simp] theorem argumentLength_linkReset : argumentLength 0x05 = some 1 := rfl
@[simp] theorem argumentLength_enrol : argumentLength 0x10 = some 6 := rfl
@[simp] theorem argumentLength_unenrol : argumentLength 0x11 = some 1 := rfl
@[simp] theorem argumentLength_disable : argumentLength 0x12 = some 1 := rfl
@[simp] theorem argumentLength_enable : argumentLength 0x13 = some 1 := rfl
@[simp] theorem argumentLength_eject : argumentLength 0x14 = some 1 := rfl
@[simp] theorem argumentLength_readStation : argumentLength 0x15 = some 1 := rfl
@[simp] theorem argumentLength_staleLimit : argumentLength 0x16 = some 2 := rfl
@[simp] theorem argumentLength_writeRule : argumentLength 0x20 = some 12 := rfl
@[simp] theorem argumentLength_readRule : argumentLength 0x21 = some 2 := rfl
@[simp] theorem argumentLength_ruleCount : argumentLength 0x22 = some 1 := rfl
@[simp] theorem argumentLength_kindDefault : argumentLength 0x23 = some 2 := rfl
@[simp] theorem argumentLength_mapWindow : argumentLength 0x30 = some 3 := rfl
@[simp] theorem argumentLength_hide : argumentLength 0x31 = some 2 := rfl
@[simp] theorem argumentLength_partner : argumentLength 0x32 = some 2 := rfl
@[simp] theorem argumentLength_profile : argumentLength 0x33 = some 7 := rfl
@[simp] theorem argumentLength_readMap : argumentLength 0x34 = some 1 := rfl
@[simp] theorem argumentLength_readClaim : argumentLength 0x38 = some 1 := rfl
@[simp] theorem argumentLength_creditParams : argumentLength 0x3C = some 2 := rfl
@[simp] theorem argumentLength_readCredit : argumentLength 0x3D = some 1 := rfl
@[simp] theorem argumentLength_area : argumentLength 0x40 = some 5 := rfl
@[simp] theorem argumentLength_joinArea : argumentLength 0x41 = some 3 := rfl
@[simp] theorem argumentLength_clearArea : argumentLength 0x42 = some 1 := rfl
@[simp] theorem argumentLength_readArea : argumentLength 0x43 = some 2 := rfl
@[simp] theorem argumentLength_chainConfig : argumentLength 0x50 = some 3 := rfl
@[simp] theorem argumentLength_census : argumentLength 0x51 = some 0 := rfl
@[simp] theorem argumentLength_elementDirect : argumentLength 0x52 = some 4 := rfl
@[simp] theorem argumentLength_resetNode : argumentLength 0x53 = some 1 := rfl
@[simp] theorem argumentLength_readNode : argumentLength 0x54 = some 1 := rfl
@[simp] theorem argumentLength_phaseTimes : argumentLength 0x60 = some 12 := rfl
@[simp] theorem argumentLength_stage : argumentLength 0x61 = some 0 := rfl
@[simp] theorem argumentLength_unstage : argumentLength 0x62 = some 0 := rfl
@[simp] theorem argumentLength_start : argumentLength 0x63 = some 0 := rfl
@[simp] theorem argumentLength_pause : argumentLength 0x64 = some 0 := rfl
@[simp] theorem argumentLength_resume : argumentLength 0x65 = some 0 := rfl
@[simp] theorem argumentLength_abort : argumentLength 0x66 = some 0 := rfl
@[simp] theorem argumentLength_silenceLimit : argumentLength 0x67 = some 2 := rfl
@[simp] theorem argumentLength_goalConfig : argumentLength 0x70 = some 8 := rfl
@[simp] theorem argumentLength_ruling : argumentLength 0x71 = some 4 := rfl
@[simp] theorem argumentLength_penalty : argumentLength 0x72 = some 3 := rfl
@[simp] theorem argumentLength_award : argumentLength 0x73 = some 3 := rfl
@[simp] theorem argumentLength_readScore : argumentLength 0x74 = some 2 := rfl

/-- A request with its argument bytes is handed to its owner and answered (R188, R189). -/
theorem takeRequest_taken {code : Nat} {r : Request} {owner : State → Owned} {s : State} (h : r.args.length ≤ 46)
    (n : (argumentLength code).getD 0 ≤ r.args.length) :
    takeRequest code r owner s = .next (reply code r (owner (mgmtArrives s))) := by
  rw [takeRequest, if_neg (by omega), if_neg (by omega)]

/-- A request short of argument bytes is answered BAD_ARGUMENT (R188 step 4). -/
theorem takeRequest_short {code : Nat} {r : Request} {owner : State → Owned} {s : State} (h : r.args.length ≤ 46)
    (n : r.args.length < (argumentLength code).getD 0) :
    takeRequest code r owner s = .next (reply code r (refuse .badArgument (mgmtArrives s))) := by
  rw [takeRequest, if_neg (by omega), if_pos n]

/-- What a request does not touch: the parts its owner, the arrival and the reply leave alone. -/
theorem takeRequest_keeps {β : Type} {p : State → β} {code : Nat} {r : Request} {owner : State → Owned} {s t : State}
    (h : takeRequest code r owner s = .next t) (ho : p (owner (mgmtArrives s)).state = p s)
    (ha : ∀ q u, p (countDiscard q u) = p u) (hi : ∀ q u, p (receiveIdle q u) = p u) (hm : p (mgmtArrives s) = p s)
    (hr : ∀ o, p (reply code r o) = p o.state) : p t = p s := by
  simp only [takeRequest] at h
  split at h
  · injection h with h; rw [← h, ha, hi]
  · split at h
    · injection h with h; rw [← h, hr, refuse_state, hm]
    · injection h with h; rw [← h, hr, ho]

/-- A result other than OK and ACCEPTED goes with no effect and no data (R10, R189). -/
def Owned.Honest (s : State) (o : Owned) : Prop :=
  o.result = .ok ∨ o.result = .accepted ∨ (o.state = s ∧ o.data = [])

theorem honest_done (t : State) (data : List Byte) : (done t data).Honest s := .inl rfl
theorem honest_accepted (t : State) : (accepted t).Honest s := .inr (.inl rfl)
theorem honest_refuse (r : Result) : (refuse r s).Honest s := .inr (.inr ⟨rfl, rfl⟩)

/-! ### Field reset -/

@[simp] theorem fieldReset_classifier : (fieldReset s).classifier = s.classifier := by
  have h : ((List.finRange 32).foldl resetStation s).classifier = s.classifier := foldl_keeps (fun s => s.classifier) (fun s x => by simp) _ _
  simp only [fieldReset]; split <;> simp [resetMatch, h]
@[simp] theorem fieldReset_map : (fieldReset s).map = s.map := by
  have h : ((List.finRange 32).foldl resetStation s).map = s.map := foldl_keeps (fun s => s.map) (fun s x => by simp) _ _
  simp only [fieldReset]; split <;> simp [resetMatch, h]
@[simp] theorem fieldReset_pending : (fieldReset s).pending = s.pending := by
  have h : ((List.finRange 32).foldl resetStation s).pending = s.pending := foldl_keeps (fun s => s.pending) (fun s x => by simp) _ _
  simp only [fieldReset]; split <;> simp [resetMatch, h]
@[simp] theorem fieldReset_chain_nodes : (fieldReset s).chain.nodes = s.chain.nodes := by
  have h : ((List.finRange 32).foldl resetStation s).chain.nodes = s.chain.nodes := foldl_keeps (fun s => s.chain.nodes) (fun s x => by simp) _ _
  simp only [fieldReset]; split <;> simp [resetMatch, h]
@[simp] theorem fieldReset_chain_mode : (fieldReset s).chain.mode = s.chain.mode := by
  have h : ((List.finRange 32).foldl resetStation s).chain.mode = s.chain.mode := foldl_keeps (fun s => s.chain.mode) (fun s x => by simp) _ _
  simp only [fieldReset]; split <;> simp [resetMatch, h]
@[simp] theorem fieldReset_chain_replyTimeout : (fieldReset s).chain.replyTimeout = s.chain.replyTimeout := by
  have h : ((List.finRange 32).foldl resetStation s).chain.replyTimeout = s.chain.replyTimeout := foldl_keeps (fun s => s.chain.replyTimeout) (fun s x => by simp) _ _
  simp only [fieldReset]; split <;> simp [resetMatch, h]
@[simp] theorem fieldReset_chain_slot : (fieldReset s).chain.slot = s.chain.slot := by
  have h : ((List.finRange 32).foldl resetStation s).chain.slot = s.chain.slot := foldl_keeps (fun s => s.chain.slot) (fun s x => by simp) _ _
  simp only [fieldReset]; split <;> simp [resetMatch, h]

/-! ### Answers to discarded commands -/

@[simp] theorem answerCleared_foldl_stations (l : List Frame) : (l.foldl answerCleared s).stations = s.stations :=
  foldl_keeps (fun s => s.stations) (fun s x => by simp) _ _
@[simp] theorem answerCleared_foldl_classifier (l : List Frame) : (l.foldl answerCleared s).classifier = s.classifier :=
  foldl_keeps (fun s => s.classifier) (fun s x => by simp) _ _
@[simp] theorem answerCleared_foldl_map (l : List Frame) : (l.foldl answerCleared s).map = s.map :=
  foldl_keeps (fun s => s.map) (fun s x => by simp) _ _
@[simp] theorem answerCleared_foldl_claims (l : List Frame) : (l.foldl answerCleared s).claims = s.claims :=
  foldl_keeps (fun s => s.claims) (fun s x => by simp) _ _
@[simp] theorem answerCleared_foldl_credit (l : List Frame) : (l.foldl answerCleared s).credit = s.credit :=
  foldl_keeps (fun s => s.credit) (fun s x => by simp) _ _
@[simp] theorem answerCleared_foldl_chain (l : List Frame) : (l.foldl answerCleared s).chain = s.chain :=
  foldl_keeps (fun s => s.chain) (fun s x => by simp) _ _
@[simp] theorem answerCleared_foldl_control (l : List Frame) : (l.foldl answerCleared s).control = s.control :=
  foldl_keeps (fun s => s.control) (fun s x => by simp) _ _
@[simp] theorem answerCleared_foldl_tally (l : List Frame) : (l.foldl answerCleared s).tally = s.tally :=
  foldl_keeps (fun s => s.tally) (fun s x => by simp) _ _
@[simp] theorem answerCleared_foldl_pending (l : List Frame) : (l.foldl answerCleared s).pending = s.pending :=
  foldl_keeps (fun s => s.pending) (fun s x => by simp) _ _

/-! ### The owners -/

@[simp] theorem ownReadStatus_stations : (ownReadStatus s).state.stations = s.stations := rfl
@[simp] theorem ownReadStatus_classifier : (ownReadStatus s).state.classifier = s.classifier := rfl
@[simp] theorem ownReadStatus_map : (ownReadStatus s).state.map = s.map := rfl
@[simp] theorem ownReadStatus_claims : (ownReadStatus s).state.claims = s.claims := rfl
@[simp] theorem ownReadStatus_credit : (ownReadStatus s).state.credit = s.credit := rfl
@[simp] theorem ownReadStatus_chain : (ownReadStatus s).state.chain = s.chain := rfl
@[simp] theorem ownReadStatus_control : (ownReadStatus s).state.control = s.control := rfl
@[simp] theorem ownReadStatus_tally : (ownReadStatus s).state.tally = s.tally := rfl
@[simp] theorem ownReadStatus_pending : (ownReadStatus s).state.pending = s.pending := rfl
theorem ownReadStatus_honest : (ownReadStatus s).Honest s := honest_done _ _ _

@[simp] theorem ownFieldReset_classifier : (ownFieldReset s).state.classifier = s.classifier := by
  simp only [ownFieldReset]; (repeat' split) <;> simp
@[simp] theorem ownFieldReset_map : (ownFieldReset s).state.map = s.map := by
  simp only [ownFieldReset]; (repeat' split) <;> simp
@[simp] theorem ownFieldReset_pending : (ownFieldReset s).state.pending = s.pending := by
  simp only [ownFieldReset]; (repeat' split) <;> simp
@[simp] theorem ownFieldReset_chain_nodes : (ownFieldReset s).state.chain.nodes = s.chain.nodes := by
  simp only [ownFieldReset]; (repeat' split) <;> simp
@[simp] theorem ownFieldReset_chain_mode : (ownFieldReset s).state.chain.mode = s.chain.mode := by
  simp only [ownFieldReset]; (repeat' split) <;> simp
@[simp] theorem ownFieldReset_chain_replyTimeout : (ownFieldReset s).state.chain.replyTimeout = s.chain.replyTimeout := by
  simp only [ownFieldReset]; (repeat' split) <;> simp
@[simp] theorem ownFieldReset_chain_slot : (ownFieldReset s).state.chain.slot = s.chain.slot := by
  simp only [ownFieldReset]; (repeat' split) <;> simp
theorem ownFieldReset_honest : (ownFieldReset s).Honest s := by
  simp only [ownFieldReset]; (repeat' split) <;>
    first | with_reducible exact honest_refuse _ _ | with_reducible exact honest_done _ _ _

@[simp] theorem ownLinkReset_stations (r : Request) : (ownLinkReset r s).state.stations = s.stations := by
  simp only [ownLinkReset]; (repeat' split) <;> simp
@[simp] theorem ownLinkReset_classifier (r : Request) : (ownLinkReset r s).state.classifier = s.classifier := by
  simp only [ownLinkReset]; (repeat' split) <;> simp
@[simp] theorem ownLinkReset_map (r : Request) : (ownLinkReset r s).state.map = s.map := by
  simp only [ownLinkReset]; (repeat' split) <;> simp
@[simp] theorem ownLinkReset_claims (r : Request) : (ownLinkReset r s).state.claims = s.claims := by
  simp only [ownLinkReset]; (repeat' split) <;> simp
@[simp] theorem ownLinkReset_credit (r : Request) : (ownLinkReset r s).state.credit = s.credit := by
  simp only [ownLinkReset]; (repeat' split) <;> simp
@[simp] theorem ownLinkReset_control (r : Request) : (ownLinkReset r s).state.control = s.control := by
  simp only [ownLinkReset]; (repeat' split) <;> simp
@[simp] theorem ownLinkReset_tally (r : Request) : (ownLinkReset r s).state.tally = s.tally := by
  simp only [ownLinkReset]; (repeat' split) <;> simp
@[simp] theorem ownLinkReset_pending (r : Request) : (ownLinkReset r s).state.pending = s.pending := by
  simp only [ownLinkReset]; (repeat' split) <;> simp
@[simp] theorem ownLinkReset_chain_mode (r : Request) : (ownLinkReset r s).state.chain.mode = s.chain.mode := by
  simp only [ownLinkReset]; (repeat' split) <;> simp
@[simp] theorem ownLinkReset_chain_replyTimeout (r : Request) : (ownLinkReset r s).state.chain.replyTimeout = s.chain.replyTimeout := by
  simp only [ownLinkReset]; (repeat' split) <;> simp
@[simp] theorem ownLinkReset_chain_slot (r : Request) : (ownLinkReset r s).state.chain.slot = s.chain.slot := by
  simp only [ownLinkReset]; (repeat' split) <;> simp
@[simp] theorem ownLinkReset_chain_halted (r : Request) : (ownLinkReset r s).state.chain.halted = s.chain.halted := by
  simp only [ownLinkReset]; (repeat' split) <;> simp
theorem ownLinkReset_honest (r : Request) : (ownLinkReset r s).Honest s := by
  simp only [ownLinkReset]; (repeat' split) <;>
    first | with_reducible exact honest_refuse _ _ | with_reducible exact honest_done _ _ _

@[simp] theorem ownEnrol_classifier (r : Request) : (ownEnrol r s).state.classifier = s.classifier := by
  simp only [ownEnrol]; (repeat' split) <;> simp
@[simp] theorem ownEnrol_map (r : Request) : (ownEnrol r s).state.map = s.map := by
  simp only [ownEnrol]; (repeat' split) <;> simp
@[simp] theorem ownEnrol_claims (r : Request) : (ownEnrol r s).state.claims = s.claims := by
  simp only [ownEnrol]; (repeat' split) <;> simp
@[simp] theorem ownEnrol_credit (r : Request) : (ownEnrol r s).state.credit = s.credit := by
  simp only [ownEnrol]; (repeat' split) <;> simp
@[simp] theorem ownEnrol_chain (r : Request) : (ownEnrol r s).state.chain = s.chain := by
  simp only [ownEnrol]; (repeat' split) <;> simp
@[simp] theorem ownEnrol_control (r : Request) : (ownEnrol r s).state.control = s.control := by
  simp only [ownEnrol]; (repeat' split) <;> simp
@[simp] theorem ownEnrol_tally (r : Request) : (ownEnrol r s).state.tally = s.tally := by
  simp only [ownEnrol]; (repeat' split) <;> simp
@[simp] theorem ownEnrol_pending (r : Request) : (ownEnrol r s).state.pending = s.pending := by
  simp only [ownEnrol]; (repeat' split) <;> simp
theorem ownEnrol_honest (r : Request) : (ownEnrol r s).Honest s := by
  simp only [ownEnrol]; (repeat' split) <;>
    first | with_reducible exact honest_refuse _ _ | with_reducible exact honest_done _ _ _

@[simp] theorem ownUnenrol_classifier (r : Request) : (ownUnenrol r s).state.classifier = s.classifier := by
  simp only [ownUnenrol]; (repeat' split) <;> simp
@[simp] theorem ownUnenrol_map (r : Request) : (ownUnenrol r s).state.map = s.map := by
  simp only [ownUnenrol]; (repeat' split) <;> simp
@[simp] theorem ownUnenrol_credit (r : Request) : (ownUnenrol r s).state.credit = s.credit := by
  simp only [ownUnenrol]; (repeat' split) <;> simp
@[simp] theorem ownUnenrol_control (r : Request) : (ownUnenrol r s).state.control = s.control := by
  simp only [ownUnenrol]; (repeat' split) <;> simp
@[simp] theorem ownUnenrol_tally (r : Request) : (ownUnenrol r s).state.tally = s.tally := by
  simp only [ownUnenrol]; (repeat' split) <;> simp
@[simp] theorem ownUnenrol_pending (r : Request) : (ownUnenrol r s).state.pending = s.pending := by
  simp only [ownUnenrol]; (repeat' split) <;> simp
@[simp] theorem ownUnenrol_chain_nodes (r : Request) : (ownUnenrol r s).state.chain.nodes = s.chain.nodes := by
  simp only [ownUnenrol]; (repeat' split) <;> simp
@[simp] theorem ownUnenrol_chain_mode (r : Request) : (ownUnenrol r s).state.chain.mode = s.chain.mode := by
  simp only [ownUnenrol]; (repeat' split) <;> simp
@[simp] theorem ownUnenrol_chain_replyTimeout (r : Request) : (ownUnenrol r s).state.chain.replyTimeout = s.chain.replyTimeout := by
  simp only [ownUnenrol]; (repeat' split) <;> simp
@[simp] theorem ownUnenrol_chain_slot (r : Request) : (ownUnenrol r s).state.chain.slot = s.chain.slot := by
  simp only [ownUnenrol]; (repeat' split) <;> simp
@[simp] theorem ownUnenrol_chain_census (r : Request) : (ownUnenrol r s).state.chain.census = s.chain.census := by
  simp only [ownUnenrol]; (repeat' split) <;> simp
@[simp] theorem ownUnenrol_chain_halted (r : Request) : (ownUnenrol r s).state.chain.halted = s.chain.halted := by
  simp only [ownUnenrol]; (repeat' split) <;> simp
@[simp] theorem ownUnenrol_chain_sideA (r : Request) : (ownUnenrol r s).state.chain.sideA = s.chain.sideA := by
  simp only [ownUnenrol]; (repeat' split) <;> simp
@[simp] theorem ownUnenrol_chain_sideB (r : Request) : (ownUnenrol r s).state.chain.sideB = s.chain.sideB := by
  simp only [ownUnenrol]; (repeat' split) <;> simp
theorem ownUnenrol_honest (r : Request) : (ownUnenrol r s).Honest s := by
  simp only [ownUnenrol]; (repeat' split) <;>
    first | with_reducible exact honest_refuse _ _ | with_reducible exact honest_done _ _ _

@[simp] theorem ownDisable_classifier (r : Request) : (ownDisable r s).state.classifier = s.classifier := by
  simp only [ownDisable]; (repeat' split) <;> simp
@[simp] theorem ownDisable_map (r : Request) : (ownDisable r s).state.map = s.map := by
  simp only [ownDisable]; (repeat' split) <;> simp
@[simp] theorem ownDisable_credit (r : Request) : (ownDisable r s).state.credit = s.credit := by
  simp only [ownDisable]; (repeat' split) <;> simp
@[simp] theorem ownDisable_control (r : Request) : (ownDisable r s).state.control = s.control := by
  simp only [ownDisable]; (repeat' split) <;> simp
@[simp] theorem ownDisable_tally (r : Request) : (ownDisable r s).state.tally = s.tally := by
  simp only [ownDisable]; (repeat' split) <;> simp
@[simp] theorem ownDisable_pending (r : Request) : (ownDisable r s).state.pending = s.pending := by
  simp only [ownDisable]; (repeat' split) <;> simp
@[simp] theorem ownDisable_chain_nodes (r : Request) : (ownDisable r s).state.chain.nodes = s.chain.nodes := by
  simp only [ownDisable]; (repeat' split) <;> simp
@[simp] theorem ownDisable_chain_mode (r : Request) : (ownDisable r s).state.chain.mode = s.chain.mode := by
  simp only [ownDisable]; (repeat' split) <;> simp
@[simp] theorem ownDisable_chain_replyTimeout (r : Request) : (ownDisable r s).state.chain.replyTimeout = s.chain.replyTimeout := by
  simp only [ownDisable]; (repeat' split) <;> simp
@[simp] theorem ownDisable_chain_slot (r : Request) : (ownDisable r s).state.chain.slot = s.chain.slot := by
  simp only [ownDisable]; (repeat' split) <;> simp
@[simp] theorem ownDisable_chain_census (r : Request) : (ownDisable r s).state.chain.census = s.chain.census := by
  simp only [ownDisable]; (repeat' split) <;> simp
@[simp] theorem ownDisable_chain_halted (r : Request) : (ownDisable r s).state.chain.halted = s.chain.halted := by
  simp only [ownDisable]; (repeat' split) <;> simp
@[simp] theorem ownDisable_chain_sideA (r : Request) : (ownDisable r s).state.chain.sideA = s.chain.sideA := by
  simp only [ownDisable]; (repeat' split) <;> simp
@[simp] theorem ownDisable_chain_sideB (r : Request) : (ownDisable r s).state.chain.sideB = s.chain.sideB := by
  simp only [ownDisable]; (repeat' split) <;> simp
theorem ownDisable_honest (r : Request) : (ownDisable r s).Honest s := by
  simp only [ownDisable]; (repeat' split) <;>
    first | with_reducible exact honest_refuse _ _ | with_reducible exact honest_done _ _ _

@[simp] theorem ownEnable_classifier (r : Request) : (ownEnable r s).state.classifier = s.classifier := by
  simp only [ownEnable]; (repeat' split) <;> simp
@[simp] theorem ownEnable_map (r : Request) : (ownEnable r s).state.map = s.map := by
  simp only [ownEnable]; (repeat' split) <;> simp
@[simp] theorem ownEnable_credit (r : Request) : (ownEnable r s).state.credit = s.credit := by
  simp only [ownEnable]; (repeat' split) <;> simp
@[simp] theorem ownEnable_control (r : Request) : (ownEnable r s).state.control = s.control := by
  simp only [ownEnable]; (repeat' split) <;> simp
@[simp] theorem ownEnable_tally (r : Request) : (ownEnable r s).state.tally = s.tally := by
  simp only [ownEnable]; (repeat' split) <;> simp
@[simp] theorem ownEnable_pending (r : Request) : (ownEnable r s).state.pending = s.pending := by
  simp only [ownEnable]; (repeat' split) <;> simp
@[simp] theorem ownEnable_chain_nodes (r : Request) : (ownEnable r s).state.chain.nodes = s.chain.nodes := by
  simp only [ownEnable]; (repeat' split) <;> simp
@[simp] theorem ownEnable_chain_mode (r : Request) : (ownEnable r s).state.chain.mode = s.chain.mode := by
  simp only [ownEnable]; (repeat' split) <;> simp
@[simp] theorem ownEnable_chain_replyTimeout (r : Request) : (ownEnable r s).state.chain.replyTimeout = s.chain.replyTimeout := by
  simp only [ownEnable]; (repeat' split) <;> simp
@[simp] theorem ownEnable_chain_slot (r : Request) : (ownEnable r s).state.chain.slot = s.chain.slot := by
  simp only [ownEnable]; (repeat' split) <;> simp
@[simp] theorem ownEnable_chain_census (r : Request) : (ownEnable r s).state.chain.census = s.chain.census := by
  simp only [ownEnable]; (repeat' split) <;> simp
@[simp] theorem ownEnable_chain_halted (r : Request) : (ownEnable r s).state.chain.halted = s.chain.halted := by
  simp only [ownEnable]; (repeat' split) <;> simp
@[simp] theorem ownEnable_chain_sideA (r : Request) : (ownEnable r s).state.chain.sideA = s.chain.sideA := by
  simp only [ownEnable]; (repeat' split) <;> simp
@[simp] theorem ownEnable_chain_sideB (r : Request) : (ownEnable r s).state.chain.sideB = s.chain.sideB := by
  simp only [ownEnable]; (repeat' split) <;> simp
theorem ownEnable_honest (r : Request) : (ownEnable r s).Honest s := by
  simp only [ownEnable]; (repeat' split) <;>
    first | with_reducible exact honest_refuse _ _ | with_reducible exact honest_done _ _ _

@[simp] theorem ownEject_classifier (r : Request) : (ownEject r s).state.classifier = s.classifier := by
  simp only [ownEject]; (repeat' split) <;> simp
@[simp] theorem ownEject_map (r : Request) : (ownEject r s).state.map = s.map := by
  simp only [ownEject]; (repeat' split) <;> simp
@[simp] theorem ownEject_credit (r : Request) : (ownEject r s).state.credit = s.credit := by
  simp only [ownEject]; (repeat' split) <;> simp
@[simp] theorem ownEject_control (r : Request) : (ownEject r s).state.control = s.control := by
  simp only [ownEject]; (repeat' split) <;> simp
@[simp] theorem ownEject_tally (r : Request) : (ownEject r s).state.tally = s.tally := by
  simp only [ownEject]; (repeat' split) <;> simp
@[simp] theorem ownEject_pending (r : Request) : (ownEject r s).state.pending = s.pending := by
  simp only [ownEject]; (repeat' split) <;> simp
@[simp] theorem ownEject_chain_nodes (r : Request) : (ownEject r s).state.chain.nodes = s.chain.nodes := by
  simp only [ownEject]; (repeat' split) <;> simp
@[simp] theorem ownEject_chain_mode (r : Request) : (ownEject r s).state.chain.mode = s.chain.mode := by
  simp only [ownEject]; (repeat' split) <;> simp
@[simp] theorem ownEject_chain_replyTimeout (r : Request) : (ownEject r s).state.chain.replyTimeout = s.chain.replyTimeout := by
  simp only [ownEject]; (repeat' split) <;> simp
@[simp] theorem ownEject_chain_slot (r : Request) : (ownEject r s).state.chain.slot = s.chain.slot := by
  simp only [ownEject]; (repeat' split) <;> simp
@[simp] theorem ownEject_chain_census (r : Request) : (ownEject r s).state.chain.census = s.chain.census := by
  simp only [ownEject]; (repeat' split) <;> simp
@[simp] theorem ownEject_chain_halted (r : Request) : (ownEject r s).state.chain.halted = s.chain.halted := by
  simp only [ownEject]; (repeat' split) <;> simp
@[simp] theorem ownEject_chain_sideA (r : Request) : (ownEject r s).state.chain.sideA = s.chain.sideA := by
  simp only [ownEject]; (repeat' split) <;> simp
@[simp] theorem ownEject_chain_sideB (r : Request) : (ownEject r s).state.chain.sideB = s.chain.sideB := by
  simp only [ownEject]; (repeat' split) <;> simp
theorem ownEject_honest (r : Request) : (ownEject r s).Honest s := by
  simp only [ownEject]; (repeat' split) <;>
    first | with_reducible exact honest_refuse _ _ | with_reducible exact honest_done _ _ _

@[simp] theorem ownReadStation_stations (r : Request) : (ownReadStation r s).state.stations = s.stations := by
  simp only [ownReadStation]; (repeat' split) <;> simp
@[simp] theorem ownReadStation_classifier (r : Request) : (ownReadStation r s).state.classifier = s.classifier := by
  simp only [ownReadStation]; (repeat' split) <;> simp
@[simp] theorem ownReadStation_map (r : Request) : (ownReadStation r s).state.map = s.map := by
  simp only [ownReadStation]; (repeat' split) <;> simp
@[simp] theorem ownReadStation_claims (r : Request) : (ownReadStation r s).state.claims = s.claims := by
  simp only [ownReadStation]; (repeat' split) <;> simp
@[simp] theorem ownReadStation_credit (r : Request) : (ownReadStation r s).state.credit = s.credit := by
  simp only [ownReadStation]; (repeat' split) <;> simp
@[simp] theorem ownReadStation_chain (r : Request) : (ownReadStation r s).state.chain = s.chain := by
  simp only [ownReadStation]; (repeat' split) <;> simp
@[simp] theorem ownReadStation_control (r : Request) : (ownReadStation r s).state.control = s.control := by
  simp only [ownReadStation]; (repeat' split) <;> simp
@[simp] theorem ownReadStation_tally (r : Request) : (ownReadStation r s).state.tally = s.tally := by
  simp only [ownReadStation]; (repeat' split) <;> simp
@[simp] theorem ownReadStation_pending (r : Request) : (ownReadStation r s).state.pending = s.pending := by
  simp only [ownReadStation]; (repeat' split) <;> simp
theorem ownReadStation_honest (r : Request) : (ownReadStation r s).Honest s := by
  simp only [ownReadStation]; (repeat' split) <;>
    first | with_reducible exact honest_refuse _ _ | with_reducible exact honest_done _ _ _

@[simp] theorem ownStaleLimit_classifier (r : Request) : (ownStaleLimit r s).state.classifier = s.classifier := by
  simp only [ownStaleLimit]; (repeat' split) <;> simp
@[simp] theorem ownStaleLimit_map (r : Request) : (ownStaleLimit r s).state.map = s.map := by
  simp only [ownStaleLimit]; (repeat' split) <;> simp
@[simp] theorem ownStaleLimit_claims (r : Request) : (ownStaleLimit r s).state.claims = s.claims := by
  simp only [ownStaleLimit]; (repeat' split) <;> simp
@[simp] theorem ownStaleLimit_credit (r : Request) : (ownStaleLimit r s).state.credit = s.credit := by
  simp only [ownStaleLimit]; (repeat' split) <;> simp
@[simp] theorem ownStaleLimit_chain (r : Request) : (ownStaleLimit r s).state.chain = s.chain := by
  simp only [ownStaleLimit]; (repeat' split) <;> simp
@[simp] theorem ownStaleLimit_control (r : Request) : (ownStaleLimit r s).state.control = s.control := by
  simp only [ownStaleLimit]; (repeat' split) <;> simp
@[simp] theorem ownStaleLimit_tally (r : Request) : (ownStaleLimit r s).state.tally = s.tally := by
  simp only [ownStaleLimit]; (repeat' split) <;> simp
@[simp] theorem ownStaleLimit_pending (r : Request) : (ownStaleLimit r s).state.pending = s.pending := by
  simp only [ownStaleLimit]; (repeat' split) <;> simp
theorem ownStaleLimit_honest (r : Request) : (ownStaleLimit r s).Honest s := by
  simp only [ownStaleLimit]; (repeat' split) <;>
    first | with_reducible exact honest_refuse _ _ | with_reducible exact honest_done _ _ _

@[simp] theorem ownWriteRule_stations (r : Request) : (ownWriteRule r s).state.stations = s.stations := by
  simp only [ownWriteRule]; (repeat' split) <;> simp
@[simp] theorem ownWriteRule_map (r : Request) : (ownWriteRule r s).state.map = s.map := by
  simp only [ownWriteRule]; (repeat' split) <;> simp
@[simp] theorem ownWriteRule_claims (r : Request) : (ownWriteRule r s).state.claims = s.claims := by
  simp only [ownWriteRule]; (repeat' split) <;> simp
@[simp] theorem ownWriteRule_credit (r : Request) : (ownWriteRule r s).state.credit = s.credit := by
  simp only [ownWriteRule]; (repeat' split) <;> simp
@[simp] theorem ownWriteRule_chain (r : Request) : (ownWriteRule r s).state.chain = s.chain := by
  simp only [ownWriteRule]; (repeat' split) <;> simp
@[simp] theorem ownWriteRule_control (r : Request) : (ownWriteRule r s).state.control = s.control := by
  simp only [ownWriteRule]; (repeat' split) <;> simp
@[simp] theorem ownWriteRule_tally (r : Request) : (ownWriteRule r s).state.tally = s.tally := by
  simp only [ownWriteRule]; (repeat' split) <;> simp
@[simp] theorem ownWriteRule_pending (r : Request) : (ownWriteRule r s).state.pending = s.pending := by
  simp only [ownWriteRule]; (repeat' split) <;> simp
theorem ownWriteRule_honest (r : Request) : (ownWriteRule r s).Honest s := by
  simp only [ownWriteRule]; (repeat' split) <;>
    first | with_reducible exact honest_refuse _ _ | with_reducible exact honest_done _ _ _

@[simp] theorem ownReadRule_stations (r : Request) : (ownReadRule r s).state.stations = s.stations := by
  simp only [ownReadRule]; (repeat' split) <;> simp
@[simp] theorem ownReadRule_map (r : Request) : (ownReadRule r s).state.map = s.map := by
  simp only [ownReadRule]; (repeat' split) <;> simp
@[simp] theorem ownReadRule_claims (r : Request) : (ownReadRule r s).state.claims = s.claims := by
  simp only [ownReadRule]; (repeat' split) <;> simp
@[simp] theorem ownReadRule_credit (r : Request) : (ownReadRule r s).state.credit = s.credit := by
  simp only [ownReadRule]; (repeat' split) <;> simp
@[simp] theorem ownReadRule_chain (r : Request) : (ownReadRule r s).state.chain = s.chain := by
  simp only [ownReadRule]; (repeat' split) <;> simp
@[simp] theorem ownReadRule_control (r : Request) : (ownReadRule r s).state.control = s.control := by
  simp only [ownReadRule]; (repeat' split) <;> simp
@[simp] theorem ownReadRule_tally (r : Request) : (ownReadRule r s).state.tally = s.tally := by
  simp only [ownReadRule]; (repeat' split) <;> simp
@[simp] theorem ownReadRule_pending (r : Request) : (ownReadRule r s).state.pending = s.pending := by
  simp only [ownReadRule]; (repeat' split) <;> simp
theorem ownReadRule_honest (r : Request) : (ownReadRule r s).Honest s := by
  simp only [ownReadRule]; (repeat' split) <;>
    first | with_reducible exact honest_refuse _ _ | with_reducible exact honest_done _ _ _

@[simp] theorem ownRuleCount_stations (r : Request) : (ownRuleCount r s).state.stations = s.stations := by
  simp only [ownRuleCount]; (repeat' split) <;> simp
@[simp] theorem ownRuleCount_map (r : Request) : (ownRuleCount r s).state.map = s.map := by
  simp only [ownRuleCount]; (repeat' split) <;> simp
@[simp] theorem ownRuleCount_claims (r : Request) : (ownRuleCount r s).state.claims = s.claims := by
  simp only [ownRuleCount]; (repeat' split) <;> simp
@[simp] theorem ownRuleCount_credit (r : Request) : (ownRuleCount r s).state.credit = s.credit := by
  simp only [ownRuleCount]; (repeat' split) <;> simp
@[simp] theorem ownRuleCount_chain (r : Request) : (ownRuleCount r s).state.chain = s.chain := by
  simp only [ownRuleCount]; (repeat' split) <;> simp
@[simp] theorem ownRuleCount_control (r : Request) : (ownRuleCount r s).state.control = s.control := by
  simp only [ownRuleCount]; (repeat' split) <;> simp
@[simp] theorem ownRuleCount_tally (r : Request) : (ownRuleCount r s).state.tally = s.tally := by
  simp only [ownRuleCount]; (repeat' split) <;> simp
@[simp] theorem ownRuleCount_pending (r : Request) : (ownRuleCount r s).state.pending = s.pending := by
  simp only [ownRuleCount]; (repeat' split) <;> simp
theorem ownRuleCount_honest (r : Request) : (ownRuleCount r s).Honest s := by
  simp only [ownRuleCount]; (repeat' split) <;>
    first | with_reducible exact honest_refuse _ _ | with_reducible exact honest_done _ _ _

@[simp] theorem ownKindDefault_stations (r : Request) : (ownKindDefault r s).state.stations = s.stations := by
  simp only [ownKindDefault]; (repeat' split) <;> simp
@[simp] theorem ownKindDefault_map (r : Request) : (ownKindDefault r s).state.map = s.map := by
  simp only [ownKindDefault]; (repeat' split) <;> simp
@[simp] theorem ownKindDefault_claims (r : Request) : (ownKindDefault r s).state.claims = s.claims := by
  simp only [ownKindDefault]; (repeat' split) <;> simp
@[simp] theorem ownKindDefault_credit (r : Request) : (ownKindDefault r s).state.credit = s.credit := by
  simp only [ownKindDefault]; (repeat' split) <;> simp
@[simp] theorem ownKindDefault_chain (r : Request) : (ownKindDefault r s).state.chain = s.chain := by
  simp only [ownKindDefault]; (repeat' split) <;> simp
@[simp] theorem ownKindDefault_control (r : Request) : (ownKindDefault r s).state.control = s.control := by
  simp only [ownKindDefault]; (repeat' split) <;> simp
@[simp] theorem ownKindDefault_tally (r : Request) : (ownKindDefault r s).state.tally = s.tally := by
  simp only [ownKindDefault]; (repeat' split) <;> simp
@[simp] theorem ownKindDefault_pending (r : Request) : (ownKindDefault r s).state.pending = s.pending := by
  simp only [ownKindDefault]; (repeat' split) <;> simp
theorem ownKindDefault_honest (r : Request) : (ownKindDefault r s).Honest s := by
  simp only [ownKindDefault]; (repeat' split) <;>
    first | with_reducible exact honest_refuse _ _ | with_reducible exact honest_done _ _ _

@[simp] theorem ownMapWindow_stations (r : Request) : (ownMapWindow r s).state.stations = s.stations := by
  simp only [ownMapWindow]; (repeat' split) <;> simp
@[simp] theorem ownMapWindow_classifier (r : Request) : (ownMapWindow r s).state.classifier = s.classifier := by
  simp only [ownMapWindow]; (repeat' split) <;> simp
@[simp] theorem ownMapWindow_claims (r : Request) : (ownMapWindow r s).state.claims = s.claims := by
  simp only [ownMapWindow]; (repeat' split) <;> simp
@[simp] theorem ownMapWindow_credit (r : Request) : (ownMapWindow r s).state.credit = s.credit := by
  simp only [ownMapWindow]; (repeat' split) <;> simp
@[simp] theorem ownMapWindow_chain (r : Request) : (ownMapWindow r s).state.chain = s.chain := by
  simp only [ownMapWindow]; (repeat' split) <;> simp
@[simp] theorem ownMapWindow_control (r : Request) : (ownMapWindow r s).state.control = s.control := by
  simp only [ownMapWindow]; (repeat' split) <;> simp
@[simp] theorem ownMapWindow_tally (r : Request) : (ownMapWindow r s).state.tally = s.tally := by
  simp only [ownMapWindow]; (repeat' split) <;> simp
@[simp] theorem ownMapWindow_pending (r : Request) : (ownMapWindow r s).state.pending = s.pending := by
  simp only [ownMapWindow]; (repeat' split) <;> simp
theorem ownMapWindow_honest (r : Request) : (ownMapWindow r s).Honest s := by
  simp only [ownMapWindow]; (repeat' split) <;>
    first | with_reducible exact honest_refuse _ _ | with_reducible exact honest_done _ _ _

@[simp] theorem ownHide_stations (r : Request) : (ownHide r s).state.stations = s.stations := by
  simp only [ownHide]; (repeat' split) <;> simp
@[simp] theorem ownHide_classifier (r : Request) : (ownHide r s).state.classifier = s.classifier := by
  simp only [ownHide]; (repeat' split) <;> simp
@[simp] theorem ownHide_claims (r : Request) : (ownHide r s).state.claims = s.claims := by
  simp only [ownHide]; (repeat' split) <;> simp
@[simp] theorem ownHide_credit (r : Request) : (ownHide r s).state.credit = s.credit := by
  simp only [ownHide]; (repeat' split) <;> simp
@[simp] theorem ownHide_chain (r : Request) : (ownHide r s).state.chain = s.chain := by
  simp only [ownHide]; (repeat' split) <;> simp
@[simp] theorem ownHide_control (r : Request) : (ownHide r s).state.control = s.control := by
  simp only [ownHide]; (repeat' split) <;> simp
@[simp] theorem ownHide_tally (r : Request) : (ownHide r s).state.tally = s.tally := by
  simp only [ownHide]; (repeat' split) <;> simp
@[simp] theorem ownHide_pending (r : Request) : (ownHide r s).state.pending = s.pending := by
  simp only [ownHide]; (repeat' split) <;> simp
theorem ownHide_honest (r : Request) : (ownHide r s).Honest s := by
  simp only [ownHide]; (repeat' split) <;>
    first | with_reducible exact honest_refuse _ _ | with_reducible exact honest_done _ _ _

@[simp] theorem ownPartner_stations (r : Request) : (ownPartner r s).state.stations = s.stations := by
  simp only [ownPartner, declarePartner, removePartner]; (repeat' split) <;> simp
@[simp] theorem ownPartner_classifier (r : Request) : (ownPartner r s).state.classifier = s.classifier := by
  simp only [ownPartner, declarePartner, removePartner]; (repeat' split) <;> simp
@[simp] theorem ownPartner_claims (r : Request) : (ownPartner r s).state.claims = s.claims := by
  simp only [ownPartner, declarePartner, removePartner]; (repeat' split) <;> simp
@[simp] theorem ownPartner_credit (r : Request) : (ownPartner r s).state.credit = s.credit := by
  simp only [ownPartner, declarePartner, removePartner]; (repeat' split) <;> simp
@[simp] theorem ownPartner_chain (r : Request) : (ownPartner r s).state.chain = s.chain := by
  simp only [ownPartner, declarePartner, removePartner]; (repeat' split) <;> simp
@[simp] theorem ownPartner_control (r : Request) : (ownPartner r s).state.control = s.control := by
  simp only [ownPartner, declarePartner, removePartner]; (repeat' split) <;> simp
@[simp] theorem ownPartner_tally (r : Request) : (ownPartner r s).state.tally = s.tally := by
  simp only [ownPartner, declarePartner, removePartner]; (repeat' split) <;> simp
@[simp] theorem ownPartner_pending (r : Request) : (ownPartner r s).state.pending = s.pending := by
  simp only [ownPartner, declarePartner, removePartner]; (repeat' split) <;> simp
theorem ownPartner_honest (r : Request) : (ownPartner r s).Honest s := by
  simp only [ownPartner, declarePartner, removePartner]; (repeat' split) <;>
    first | with_reducible exact honest_refuse _ _ | with_reducible exact honest_done _ _ _

@[simp] theorem ownProfile_stations (r : Request) : (ownProfile r s).state.stations = s.stations := by
  simp only [ownProfile]; (repeat' split) <;> simp
@[simp] theorem ownProfile_classifier (r : Request) : (ownProfile r s).state.classifier = s.classifier := by
  simp only [ownProfile]; (repeat' split) <;> simp
@[simp] theorem ownProfile_claims (r : Request) : (ownProfile r s).state.claims = s.claims := by
  simp only [ownProfile]; (repeat' split) <;> simp
@[simp] theorem ownProfile_credit (r : Request) : (ownProfile r s).state.credit = s.credit := by
  simp only [ownProfile]; (repeat' split) <;> simp
@[simp] theorem ownProfile_chain (r : Request) : (ownProfile r s).state.chain = s.chain := by
  simp only [ownProfile]; (repeat' split) <;> simp
@[simp] theorem ownProfile_control (r : Request) : (ownProfile r s).state.control = s.control := by
  simp only [ownProfile]; (repeat' split) <;> simp
@[simp] theorem ownProfile_tally (r : Request) : (ownProfile r s).state.tally = s.tally := by
  simp only [ownProfile]; (repeat' split) <;> simp
@[simp] theorem ownProfile_pending (r : Request) : (ownProfile r s).state.pending = s.pending := by
  simp only [ownProfile]; (repeat' split) <;> simp
theorem ownProfile_honest (r : Request) : (ownProfile r s).Honest s := by
  simp only [ownProfile]; (repeat' split) <;>
    first | with_reducible exact honest_refuse _ _ | with_reducible exact honest_done _ _ _

@[simp] theorem ownReadMap_stations (r : Request) : (ownReadMap r s).state.stations = s.stations := by
  simp only [ownReadMap]; (repeat' split) <;> simp
@[simp] theorem ownReadMap_classifier (r : Request) : (ownReadMap r s).state.classifier = s.classifier := by
  simp only [ownReadMap]; (repeat' split) <;> simp
@[simp] theorem ownReadMap_map (r : Request) : (ownReadMap r s).state.map = s.map := by
  simp only [ownReadMap]; (repeat' split) <;> simp
@[simp] theorem ownReadMap_claims (r : Request) : (ownReadMap r s).state.claims = s.claims := by
  simp only [ownReadMap]; (repeat' split) <;> simp
@[simp] theorem ownReadMap_credit (r : Request) : (ownReadMap r s).state.credit = s.credit := by
  simp only [ownReadMap]; (repeat' split) <;> simp
@[simp] theorem ownReadMap_chain (r : Request) : (ownReadMap r s).state.chain = s.chain := by
  simp only [ownReadMap]; (repeat' split) <;> simp
@[simp] theorem ownReadMap_control (r : Request) : (ownReadMap r s).state.control = s.control := by
  simp only [ownReadMap]; (repeat' split) <;> simp
@[simp] theorem ownReadMap_tally (r : Request) : (ownReadMap r s).state.tally = s.tally := by
  simp only [ownReadMap]; (repeat' split) <;> simp
@[simp] theorem ownReadMap_pending (r : Request) : (ownReadMap r s).state.pending = s.pending := by
  simp only [ownReadMap]; (repeat' split) <;> simp
theorem ownReadMap_honest (r : Request) : (ownReadMap r s).Honest s := by
  simp only [ownReadMap]; (repeat' split) <;>
    first | with_reducible exact honest_refuse _ _ | with_reducible exact honest_done _ _ _

@[simp] theorem ownReadClaim_stations (r : Request) : (ownReadClaim r s).state.stations = s.stations := by
  simp only [ownReadClaim]; (repeat' split) <;> simp
@[simp] theorem ownReadClaim_classifier (r : Request) : (ownReadClaim r s).state.classifier = s.classifier := by
  simp only [ownReadClaim]; (repeat' split) <;> simp
@[simp] theorem ownReadClaim_map (r : Request) : (ownReadClaim r s).state.map = s.map := by
  simp only [ownReadClaim]; (repeat' split) <;> simp
@[simp] theorem ownReadClaim_claims (r : Request) : (ownReadClaim r s).state.claims = s.claims := by
  simp only [ownReadClaim]; (repeat' split) <;> simp
@[simp] theorem ownReadClaim_credit (r : Request) : (ownReadClaim r s).state.credit = s.credit := by
  simp only [ownReadClaim]; (repeat' split) <;> simp
@[simp] theorem ownReadClaim_chain (r : Request) : (ownReadClaim r s).state.chain = s.chain := by
  simp only [ownReadClaim]; (repeat' split) <;> simp
@[simp] theorem ownReadClaim_control (r : Request) : (ownReadClaim r s).state.control = s.control := by
  simp only [ownReadClaim]; (repeat' split) <;> simp
@[simp] theorem ownReadClaim_tally (r : Request) : (ownReadClaim r s).state.tally = s.tally := by
  simp only [ownReadClaim]; (repeat' split) <;> simp
@[simp] theorem ownReadClaim_pending (r : Request) : (ownReadClaim r s).state.pending = s.pending := by
  simp only [ownReadClaim]; (repeat' split) <;> simp
theorem ownReadClaim_honest (r : Request) : (ownReadClaim r s).Honest s := by
  simp only [ownReadClaim]; (repeat' split) <;>
    first | with_reducible exact honest_refuse _ _ | with_reducible exact honest_done _ _ _

@[simp] theorem ownCreditParams_stations (r : Request) : (ownCreditParams r s).state.stations = s.stations := by
  simp only [ownCreditParams]; (repeat' split) <;> simp
@[simp] theorem ownCreditParams_classifier (r : Request) : (ownCreditParams r s).state.classifier = s.classifier := by
  simp only [ownCreditParams]; (repeat' split) <;> simp
@[simp] theorem ownCreditParams_map (r : Request) : (ownCreditParams r s).state.map = s.map := by
  simp only [ownCreditParams]; (repeat' split) <;> simp
@[simp] theorem ownCreditParams_claims (r : Request) : (ownCreditParams r s).state.claims = s.claims := by
  simp only [ownCreditParams]; (repeat' split) <;> simp
@[simp] theorem ownCreditParams_chain (r : Request) : (ownCreditParams r s).state.chain = s.chain := by
  simp only [ownCreditParams]; (repeat' split) <;> simp
@[simp] theorem ownCreditParams_control (r : Request) : (ownCreditParams r s).state.control = s.control := by
  simp only [ownCreditParams]; (repeat' split) <;> simp
@[simp] theorem ownCreditParams_tally (r : Request) : (ownCreditParams r s).state.tally = s.tally := by
  simp only [ownCreditParams]; (repeat' split) <;> simp
@[simp] theorem ownCreditParams_pending (r : Request) : (ownCreditParams r s).state.pending = s.pending := by
  simp only [ownCreditParams]; (repeat' split) <;> simp
theorem ownCreditParams_honest (r : Request) : (ownCreditParams r s).Honest s := by
  simp only [ownCreditParams]; (repeat' split) <;>
    first | with_reducible exact honest_refuse _ _ | with_reducible exact honest_done _ _ _

@[simp] theorem ownReadCredit_stations (r : Request) : (ownReadCredit r s).state.stations = s.stations := by
  simp only [ownReadCredit]; (repeat' split) <;> simp
@[simp] theorem ownReadCredit_classifier (r : Request) : (ownReadCredit r s).state.classifier = s.classifier := by
  simp only [ownReadCredit]; (repeat' split) <;> simp
@[simp] theorem ownReadCredit_map (r : Request) : (ownReadCredit r s).state.map = s.map := by
  simp only [ownReadCredit]; (repeat' split) <;> simp
@[simp] theorem ownReadCredit_claims (r : Request) : (ownReadCredit r s).state.claims = s.claims := by
  simp only [ownReadCredit]; (repeat' split) <;> simp
@[simp] theorem ownReadCredit_credit (r : Request) : (ownReadCredit r s).state.credit = s.credit := by
  simp only [ownReadCredit]; (repeat' split) <;> simp
@[simp] theorem ownReadCredit_chain (r : Request) : (ownReadCredit r s).state.chain = s.chain := by
  simp only [ownReadCredit]; (repeat' split) <;> simp
@[simp] theorem ownReadCredit_control (r : Request) : (ownReadCredit r s).state.control = s.control := by
  simp only [ownReadCredit]; (repeat' split) <;> simp
@[simp] theorem ownReadCredit_tally (r : Request) : (ownReadCredit r s).state.tally = s.tally := by
  simp only [ownReadCredit]; (repeat' split) <;> simp
@[simp] theorem ownReadCredit_pending (r : Request) : (ownReadCredit r s).state.pending = s.pending := by
  simp only [ownReadCredit]; (repeat' split) <;> simp
theorem ownReadCredit_honest (r : Request) : (ownReadCredit r s).Honest s := by
  simp only [ownReadCredit]; (repeat' split) <;>
    first | with_reducible exact honest_refuse _ _ | with_reducible exact honest_done _ _ _

@[simp] theorem ownArea_stations (r : Request) : (ownArea r s).state.stations = s.stations := by
  simp only [ownArea]; (repeat' split) <;> simp
@[simp] theorem ownArea_classifier (r : Request) : (ownArea r s).state.classifier = s.classifier := by
  simp only [ownArea]; (repeat' split) <;> simp
@[simp] theorem ownArea_map (r : Request) : (ownArea r s).state.map = s.map := by
  simp only [ownArea]; (repeat' split) <;> simp
@[simp] theorem ownArea_claims (r : Request) : (ownArea r s).state.claims = s.claims := by
  simp only [ownArea]; (repeat' split) <;> simp
@[simp] theorem ownArea_credit (r : Request) : (ownArea r s).state.credit = s.credit := by
  simp only [ownArea]; (repeat' split) <;> simp
@[simp] theorem ownArea_chain (r : Request) : (ownArea r s).state.chain = s.chain := by
  simp only [ownArea]; (repeat' split) <;> simp
@[simp] theorem ownArea_control (r : Request) : (ownArea r s).state.control = s.control := by
  simp only [ownArea]; (repeat' split) <;> simp
@[simp] theorem ownArea_tally (r : Request) : (ownArea r s).state.tally = s.tally := by
  simp only [ownArea]; (repeat' split) <;> simp
@[simp] theorem ownArea_pending (r : Request) : (ownArea r s).state.pending = s.pending := by
  simp only [ownArea]; (repeat' split) <;> simp
theorem ownArea_honest (r : Request) : (ownArea r s).Honest s := by
  simp only [ownArea]; (repeat' split) <;>
    first | with_reducible exact honest_refuse _ _ | with_reducible exact honest_done _ _ _

@[simp] theorem ownJoinArea_stations (r : Request) : (ownJoinArea r s).state.stations = s.stations := by
  simp only [ownJoinArea]; (repeat' split) <;> simp
@[simp] theorem ownJoinArea_classifier (r : Request) : (ownJoinArea r s).state.classifier = s.classifier := by
  simp only [ownJoinArea]; (repeat' split) <;> simp
@[simp] theorem ownJoinArea_map (r : Request) : (ownJoinArea r s).state.map = s.map := by
  simp only [ownJoinArea]; (repeat' split) <;> simp
@[simp] theorem ownJoinArea_claims (r : Request) : (ownJoinArea r s).state.claims = s.claims := by
  simp only [ownJoinArea]; (repeat' split) <;> simp
@[simp] theorem ownJoinArea_credit (r : Request) : (ownJoinArea r s).state.credit = s.credit := by
  simp only [ownJoinArea]; (repeat' split) <;> simp
@[simp] theorem ownJoinArea_chain (r : Request) : (ownJoinArea r s).state.chain = s.chain := by
  simp only [ownJoinArea]; (repeat' split) <;> simp
@[simp] theorem ownJoinArea_control (r : Request) : (ownJoinArea r s).state.control = s.control := by
  simp only [ownJoinArea]; (repeat' split) <;> simp
@[simp] theorem ownJoinArea_tally (r : Request) : (ownJoinArea r s).state.tally = s.tally := by
  simp only [ownJoinArea]; (repeat' split) <;> simp
@[simp] theorem ownJoinArea_pending (r : Request) : (ownJoinArea r s).state.pending = s.pending := by
  simp only [ownJoinArea]; (repeat' split) <;> simp
theorem ownJoinArea_honest (r : Request) : (ownJoinArea r s).Honest s := by
  simp only [ownJoinArea]; (repeat' split) <;>
    first | with_reducible exact honest_refuse _ _ | with_reducible exact honest_done _ _ _

@[simp] theorem ownClearArea_stations (r : Request) : (ownClearArea r s).state.stations = s.stations := by
  simp only [ownClearArea]; (repeat' split) <;> simp
@[simp] theorem ownClearArea_classifier (r : Request) : (ownClearArea r s).state.classifier = s.classifier := by
  simp only [ownClearArea]; (repeat' split) <;> simp
@[simp] theorem ownClearArea_map (r : Request) : (ownClearArea r s).state.map = s.map := by
  simp only [ownClearArea]; (repeat' split) <;> simp
@[simp] theorem ownClearArea_claims (r : Request) : (ownClearArea r s).state.claims = s.claims := by
  simp only [ownClearArea]; (repeat' split) <;> simp
@[simp] theorem ownClearArea_credit (r : Request) : (ownClearArea r s).state.credit = s.credit := by
  simp only [ownClearArea]; (repeat' split) <;> simp
@[simp] theorem ownClearArea_chain (r : Request) : (ownClearArea r s).state.chain = s.chain := by
  simp only [ownClearArea]; (repeat' split) <;> simp
@[simp] theorem ownClearArea_control (r : Request) : (ownClearArea r s).state.control = s.control := by
  simp only [ownClearArea]; (repeat' split) <;> simp
@[simp] theorem ownClearArea_tally (r : Request) : (ownClearArea r s).state.tally = s.tally := by
  simp only [ownClearArea]; (repeat' split) <;> simp
@[simp] theorem ownClearArea_pending (r : Request) : (ownClearArea r s).state.pending = s.pending := by
  simp only [ownClearArea]; (repeat' split) <;> simp
theorem ownClearArea_honest (r : Request) : (ownClearArea r s).Honest s := by
  simp only [ownClearArea]; (repeat' split) <;>
    first | with_reducible exact honest_refuse _ _ | with_reducible exact honest_done _ _ _

@[simp] theorem ownReadArea_stations (r : Request) : (ownReadArea r s).state.stations = s.stations := by
  simp only [ownReadArea]; (repeat' split) <;> simp
@[simp] theorem ownReadArea_classifier (r : Request) : (ownReadArea r s).state.classifier = s.classifier := by
  simp only [ownReadArea]; (repeat' split) <;> simp
@[simp] theorem ownReadArea_map (r : Request) : (ownReadArea r s).state.map = s.map := by
  simp only [ownReadArea]; (repeat' split) <;> simp
@[simp] theorem ownReadArea_claims (r : Request) : (ownReadArea r s).state.claims = s.claims := by
  simp only [ownReadArea]; (repeat' split) <;> simp
@[simp] theorem ownReadArea_credit (r : Request) : (ownReadArea r s).state.credit = s.credit := by
  simp only [ownReadArea]; (repeat' split) <;> simp
@[simp] theorem ownReadArea_chain (r : Request) : (ownReadArea r s).state.chain = s.chain := by
  simp only [ownReadArea]; (repeat' split) <;> simp
@[simp] theorem ownReadArea_control (r : Request) : (ownReadArea r s).state.control = s.control := by
  simp only [ownReadArea]; (repeat' split) <;> simp
@[simp] theorem ownReadArea_tally (r : Request) : (ownReadArea r s).state.tally = s.tally := by
  simp only [ownReadArea]; (repeat' split) <;> simp
@[simp] theorem ownReadArea_pending (r : Request) : (ownReadArea r s).state.pending = s.pending := by
  simp only [ownReadArea]; (repeat' split) <;> simp
theorem ownReadArea_honest (r : Request) : (ownReadArea r s).Honest s := by
  simp only [ownReadArea]; (repeat' split) <;>
    first | with_reducible exact honest_refuse _ _ | with_reducible exact honest_done _ _ _

@[simp] theorem ownReadNode_stations (r : Request) : (ownReadNode r s).state.stations = s.stations := by
  simp only [ownReadNode]; (repeat' split) <;> simp
@[simp] theorem ownReadNode_classifier (r : Request) : (ownReadNode r s).state.classifier = s.classifier := by
  simp only [ownReadNode]; (repeat' split) <;> simp
@[simp] theorem ownReadNode_map (r : Request) : (ownReadNode r s).state.map = s.map := by
  simp only [ownReadNode]; (repeat' split) <;> simp
@[simp] theorem ownReadNode_claims (r : Request) : (ownReadNode r s).state.claims = s.claims := by
  simp only [ownReadNode]; (repeat' split) <;> simp
@[simp] theorem ownReadNode_credit (r : Request) : (ownReadNode r s).state.credit = s.credit := by
  simp only [ownReadNode]; (repeat' split) <;> simp
@[simp] theorem ownReadNode_chain (r : Request) : (ownReadNode r s).state.chain = s.chain := by
  simp only [ownReadNode]; (repeat' split) <;> simp
@[simp] theorem ownReadNode_control (r : Request) : (ownReadNode r s).state.control = s.control := by
  simp only [ownReadNode]; (repeat' split) <;> simp
@[simp] theorem ownReadNode_tally (r : Request) : (ownReadNode r s).state.tally = s.tally := by
  simp only [ownReadNode]; (repeat' split) <;> simp
@[simp] theorem ownReadNode_pending (r : Request) : (ownReadNode r s).state.pending = s.pending := by
  simp only [ownReadNode]; (repeat' split) <;> simp
theorem ownReadNode_honest (r : Request) : (ownReadNode r s).Honest s := by
  simp only [ownReadNode]; (repeat' split) <;>
    first | with_reducible exact honest_refuse _ _ | with_reducible exact honest_done _ _ _

@[simp] theorem ownReadScore_stations (r : Request) : (ownReadScore r s).state.stations = s.stations := by
  simp only [ownReadScore]; (repeat' split) <;> simp
@[simp] theorem ownReadScore_classifier (r : Request) : (ownReadScore r s).state.classifier = s.classifier := by
  simp only [ownReadScore]; (repeat' split) <;> simp
@[simp] theorem ownReadScore_map (r : Request) : (ownReadScore r s).state.map = s.map := by
  simp only [ownReadScore]; (repeat' split) <;> simp
@[simp] theorem ownReadScore_claims (r : Request) : (ownReadScore r s).state.claims = s.claims := by
  simp only [ownReadScore]; (repeat' split) <;> simp
@[simp] theorem ownReadScore_credit (r : Request) : (ownReadScore r s).state.credit = s.credit := by
  simp only [ownReadScore]; (repeat' split) <;> simp
@[simp] theorem ownReadScore_chain (r : Request) : (ownReadScore r s).state.chain = s.chain := by
  simp only [ownReadScore]; (repeat' split) <;> simp
@[simp] theorem ownReadScore_control (r : Request) : (ownReadScore r s).state.control = s.control := by
  simp only [ownReadScore]; (repeat' split) <;> simp
@[simp] theorem ownReadScore_tally (r : Request) : (ownReadScore r s).state.tally = s.tally := by
  simp only [ownReadScore]; (repeat' split) <;> simp
@[simp] theorem ownReadScore_pending (r : Request) : (ownReadScore r s).state.pending = s.pending := by
  simp only [ownReadScore]; (repeat' split) <;> simp
theorem ownReadScore_honest (r : Request) : (ownReadScore r s).Honest s := by
  simp only [ownReadScore]; (repeat' split) <;>
    first | with_reducible exact honest_refuse _ _ | with_reducible exact honest_done _ _ _

@[simp] theorem ownChainConfig_stations (r : Request) : (ownChainConfig r s).state.stations = s.stations := by
  simp only [ownChainConfig]; (repeat' split) <;> simp
@[simp] theorem ownChainConfig_classifier (r : Request) : (ownChainConfig r s).state.classifier = s.classifier := by
  simp only [ownChainConfig]; (repeat' split) <;> simp
@[simp] theorem ownChainConfig_map (r : Request) : (ownChainConfig r s).state.map = s.map := by
  simp only [ownChainConfig]; (repeat' split) <;> simp
@[simp] theorem ownChainConfig_claims (r : Request) : (ownChainConfig r s).state.claims = s.claims := by
  simp only [ownChainConfig]; (repeat' split) <;> simp
@[simp] theorem ownChainConfig_credit (r : Request) : (ownChainConfig r s).state.credit = s.credit := by
  simp only [ownChainConfig]; (repeat' split) <;> simp
@[simp] theorem ownChainConfig_control (r : Request) : (ownChainConfig r s).state.control = s.control := by
  simp only [ownChainConfig]; (repeat' split) <;> simp
@[simp] theorem ownChainConfig_tally (r : Request) : (ownChainConfig r s).state.tally = s.tally := by
  simp only [ownChainConfig]; (repeat' split) <;> simp
@[simp] theorem ownChainConfig_pending (r : Request) : (ownChainConfig r s).state.pending = s.pending := by
  simp only [ownChainConfig]; (repeat' split) <;> simp
@[simp] theorem ownChainConfig_chain_tags (r : Request) : (ownChainConfig r s).state.chain.tags = s.chain.tags := by
  simp only [ownChainConfig]; (repeat' split) <;> simp
@[simp] theorem ownChainConfig_chain_slot (r : Request) : (ownChainConfig r s).state.chain.slot = s.chain.slot := by
  simp only [ownChainConfig]; (repeat' split) <;> simp
@[simp] theorem ownChainConfig_chain_census (r : Request) : (ownChainConfig r s).state.chain.census = s.chain.census := by
  simp only [ownChainConfig]; (repeat' split) <;> simp
@[simp] theorem ownChainConfig_chain_halted (r : Request) : (ownChainConfig r s).state.chain.halted = s.chain.halted := by
  simp only [ownChainConfig]; (repeat' split) <;> simp
@[simp] theorem ownChainConfig_chain_sideA (r : Request) : (ownChainConfig r s).state.chain.sideA = s.chain.sideA := by
  simp only [ownChainConfig]; (repeat' split) <;> simp
@[simp] theorem ownChainConfig_chain_sideB (r : Request) : (ownChainConfig r s).state.chain.sideB = s.chain.sideB := by
  simp only [ownChainConfig]; (repeat' split) <;> simp
theorem ownChainConfig_honest (r : Request) : (ownChainConfig r s).Honest s := by
  simp only [ownChainConfig]; (repeat' split) <;>
    first | with_reducible exact honest_refuse _ _ | with_reducible exact honest_done _ _ _

@[simp] theorem ownCensus_stations (r : Request) : (ownCensus r s).state.stations = s.stations := by
  simp only [ownCensus]; (repeat' split) <;> simp
@[simp] theorem ownCensus_classifier (r : Request) : (ownCensus r s).state.classifier = s.classifier := by
  simp only [ownCensus]; (repeat' split) <;> simp
@[simp] theorem ownCensus_map (r : Request) : (ownCensus r s).state.map = s.map := by
  simp only [ownCensus]; (repeat' split) <;> simp
@[simp] theorem ownCensus_claims (r : Request) : (ownCensus r s).state.claims = s.claims := by
  simp only [ownCensus]; (repeat' split) <;> simp
@[simp] theorem ownCensus_credit (r : Request) : (ownCensus r s).state.credit = s.credit := by
  simp only [ownCensus]; (repeat' split) <;> simp
@[simp] theorem ownCensus_control (r : Request) : (ownCensus r s).state.control = s.control := by
  simp only [ownCensus]; (repeat' split) <;> simp
@[simp] theorem ownCensus_tally (r : Request) : (ownCensus r s).state.tally = s.tally := by
  simp only [ownCensus]; (repeat' split) <;> simp
@[simp] theorem ownCensus_pending (r : Request) : (ownCensus r s).state.pending = s.pending := by
  simp only [ownCensus]; (repeat' split) <;> simp
@[simp] theorem ownCensus_chain_mode (r : Request) : (ownCensus r s).state.chain.mode = s.chain.mode := by
  simp only [ownCensus]; (repeat' split) <;> simp
@[simp] theorem ownCensus_chain_replyTimeout (r : Request) : (ownCensus r s).state.chain.replyTimeout = s.chain.replyTimeout := by
  simp only [ownCensus]; (repeat' split) <;> simp
@[simp] theorem ownCensus_chain_tags (r : Request) : (ownCensus r s).state.chain.tags = s.chain.tags := by
  simp only [ownCensus]; (repeat' split) <;> simp
@[simp] theorem ownCensus_chain_slot (r : Request) : (ownCensus r s).state.chain.slot = s.chain.slot := by
  simp only [ownCensus]; (repeat' split) <;> simp
@[simp] theorem ownCensus_chain_halted (r : Request) : (ownCensus r s).state.chain.halted = s.chain.halted := by
  simp only [ownCensus]; (repeat' split) <;> simp
theorem ownCensus_honest (r : Request) : (ownCensus r s).Honest s := by
  simp only [ownCensus]; (repeat' split) <;>
    first | with_reducible exact honest_refuse _ _ | with_reducible exact honest_done _ _ _ | with_reducible exact honest_accepted _ _

@[simp] theorem ownElementDirect_stations (r : Request) : (ownElementDirect r s).state.stations = s.stations := by
  simp only [ownElementDirect]; (repeat' split) <;> simp
@[simp] theorem ownElementDirect_classifier (r : Request) : (ownElementDirect r s).state.classifier = s.classifier := by
  simp only [ownElementDirect]; (repeat' split) <;> simp
@[simp] theorem ownElementDirect_map (r : Request) : (ownElementDirect r s).state.map = s.map := by
  simp only [ownElementDirect]; (repeat' split) <;> simp
@[simp] theorem ownElementDirect_claims (r : Request) : (ownElementDirect r s).state.claims = s.claims := by
  simp only [ownElementDirect]; (repeat' split) <;> simp
@[simp] theorem ownElementDirect_credit (r : Request) : (ownElementDirect r s).state.credit = s.credit := by
  simp only [ownElementDirect]; (repeat' split) <;> simp
@[simp] theorem ownElementDirect_control (r : Request) : (ownElementDirect r s).state.control = s.control := by
  simp only [ownElementDirect]; (repeat' split) <;> simp
@[simp] theorem ownElementDirect_tally (r : Request) : (ownElementDirect r s).state.tally = s.tally := by
  simp only [ownElementDirect]; (repeat' split) <;> simp
@[simp] theorem ownElementDirect_pending (r : Request) : (ownElementDirect r s).state.pending = s.pending := by
  simp only [ownElementDirect]; (repeat' split) <;> simp
@[simp] theorem ownElementDirect_chain_nodes (r : Request) : (ownElementDirect r s).state.chain.nodes = s.chain.nodes := by
  simp only [ownElementDirect]; (repeat' split) <;> simp
@[simp] theorem ownElementDirect_chain_mode (r : Request) : (ownElementDirect r s).state.chain.mode = s.chain.mode := by
  simp only [ownElementDirect]; (repeat' split) <;> simp
@[simp] theorem ownElementDirect_chain_replyTimeout (r : Request) : (ownElementDirect r s).state.chain.replyTimeout = s.chain.replyTimeout := by
  simp only [ownElementDirect]; (repeat' split) <;> simp
@[simp] theorem ownElementDirect_chain_census (r : Request) : (ownElementDirect r s).state.chain.census = s.chain.census := by
  simp only [ownElementDirect]; (repeat' split) <;> simp
@[simp] theorem ownElementDirect_chain_halted (r : Request) : (ownElementDirect r s).state.chain.halted = s.chain.halted := by
  simp only [ownElementDirect]; (repeat' split) <;> simp
theorem ownElementDirect_honest (r : Request) : (ownElementDirect r s).Honest s := by
  simp only [ownElementDirect]; (repeat' split) <;>
    first | with_reducible exact honest_refuse _ _ | with_reducible exact honest_done _ _ _ | with_reducible exact honest_accepted _ _

@[simp] theorem ownResetNode_stations (r : Request) : (ownResetNode r s).state.stations = s.stations := by
  simp only [ownResetNode]; (repeat' split) <;> simp
@[simp] theorem ownResetNode_classifier (r : Request) : (ownResetNode r s).state.classifier = s.classifier := by
  simp only [ownResetNode]; (repeat' split) <;> simp
@[simp] theorem ownResetNode_map (r : Request) : (ownResetNode r s).state.map = s.map := by
  simp only [ownResetNode]; (repeat' split) <;> simp
@[simp] theorem ownResetNode_claims (r : Request) : (ownResetNode r s).state.claims = s.claims := by
  simp only [ownResetNode]; (repeat' split) <;> simp
@[simp] theorem ownResetNode_credit (r : Request) : (ownResetNode r s).state.credit = s.credit := by
  simp only [ownResetNode]; (repeat' split) <;> simp
@[simp] theorem ownResetNode_control (r : Request) : (ownResetNode r s).state.control = s.control := by
  simp only [ownResetNode]; (repeat' split) <;> simp
@[simp] theorem ownResetNode_tally (r : Request) : (ownResetNode r s).state.tally = s.tally := by
  simp only [ownResetNode]; (repeat' split) <;> simp
@[simp] theorem ownResetNode_pending (r : Request) : (ownResetNode r s).state.pending = s.pending := by
  simp only [ownResetNode]; (repeat' split) <;> simp
@[simp] theorem ownResetNode_chain_mode (r : Request) : (ownResetNode r s).state.chain.mode = s.chain.mode := by
  simp only [ownResetNode]; (repeat' split) <;> simp
@[simp] theorem ownResetNode_chain_replyTimeout (r : Request) : (ownResetNode r s).state.chain.replyTimeout = s.chain.replyTimeout := by
  simp only [ownResetNode]; (repeat' split) <;> simp
@[simp] theorem ownResetNode_chain_slot (r : Request) : (ownResetNode r s).state.chain.slot = s.chain.slot := by
  simp only [ownResetNode]; (repeat' split) <;> simp
@[simp] theorem ownResetNode_chain_census (r : Request) : (ownResetNode r s).state.chain.census = s.chain.census := by
  simp only [ownResetNode]; (repeat' split) <;> simp
@[simp] theorem ownResetNode_chain_halted (r : Request) : (ownResetNode r s).state.chain.halted = s.chain.halted := by
  simp only [ownResetNode]; (repeat' split) <;> simp
theorem ownResetNode_honest (r : Request) : (ownResetNode r s).Honest s := by
  simp only [ownResetNode]; (repeat' split) <;>
    first | with_reducible exact honest_refuse _ _ | with_reducible exact honest_done _ _ _

@[simp] theorem ownPhaseTimes_stations (r : Request) : (ownPhaseTimes r s).state.stations = s.stations := by
  simp only [ownPhaseTimes]; (repeat' split) <;> simp
@[simp] theorem ownPhaseTimes_classifier (r : Request) : (ownPhaseTimes r s).state.classifier = s.classifier := by
  simp only [ownPhaseTimes]; (repeat' split) <;> simp
@[simp] theorem ownPhaseTimes_map (r : Request) : (ownPhaseTimes r s).state.map = s.map := by
  simp only [ownPhaseTimes]; (repeat' split) <;> simp
@[simp] theorem ownPhaseTimes_claims (r : Request) : (ownPhaseTimes r s).state.claims = s.claims := by
  simp only [ownPhaseTimes]; (repeat' split) <;> simp
@[simp] theorem ownPhaseTimes_credit (r : Request) : (ownPhaseTimes r s).state.credit = s.credit := by
  simp only [ownPhaseTimes]; (repeat' split) <;> simp
@[simp] theorem ownPhaseTimes_chain (r : Request) : (ownPhaseTimes r s).state.chain = s.chain := by
  simp only [ownPhaseTimes]; (repeat' split) <;> simp
@[simp] theorem ownPhaseTimes_tally (r : Request) : (ownPhaseTimes r s).state.tally = s.tally := by
  simp only [ownPhaseTimes]; (repeat' split) <;> simp
@[simp] theorem ownPhaseTimes_pending (r : Request) : (ownPhaseTimes r s).state.pending = s.pending := by
  simp only [ownPhaseTimes]; (repeat' split) <;> simp
@[simp] theorem ownPhaseTimes_control_phase (r : Request) : (ownPhaseTimes r s).state.control.phase = s.control.phase := by
  simp only [ownPhaseTimes]; (repeat' split) <;> simp
theorem ownPhaseTimes_honest (r : Request) : (ownPhaseTimes r s).Honest s := by
  simp only [ownPhaseTimes]; (repeat' split) <;>
    first | with_reducible exact honest_refuse _ _ | with_reducible exact honest_done _ _ _

@[simp] theorem ownSilenceLimit_stations (r : Request) : (ownSilenceLimit r s).state.stations = s.stations := by
  simp only [ownSilenceLimit]; (repeat' split) <;> simp
@[simp] theorem ownSilenceLimit_classifier (r : Request) : (ownSilenceLimit r s).state.classifier = s.classifier := by
  simp only [ownSilenceLimit]; (repeat' split) <;> simp
@[simp] theorem ownSilenceLimit_map (r : Request) : (ownSilenceLimit r s).state.map = s.map := by
  simp only [ownSilenceLimit]; (repeat' split) <;> simp
@[simp] theorem ownSilenceLimit_claims (r : Request) : (ownSilenceLimit r s).state.claims = s.claims := by
  simp only [ownSilenceLimit]; (repeat' split) <;> simp
@[simp] theorem ownSilenceLimit_credit (r : Request) : (ownSilenceLimit r s).state.credit = s.credit := by
  simp only [ownSilenceLimit]; (repeat' split) <;> simp
@[simp] theorem ownSilenceLimit_chain (r : Request) : (ownSilenceLimit r s).state.chain = s.chain := by
  simp only [ownSilenceLimit]; (repeat' split) <;> simp
@[simp] theorem ownSilenceLimit_tally (r : Request) : (ownSilenceLimit r s).state.tally = s.tally := by
  simp only [ownSilenceLimit]; (repeat' split) <;> simp
@[simp] theorem ownSilenceLimit_pending (r : Request) : (ownSilenceLimit r s).state.pending = s.pending := by
  simp only [ownSilenceLimit]; (repeat' split) <;> simp
@[simp] theorem ownSilenceLimit_control_phase (r : Request) : (ownSilenceLimit r s).state.control.phase = s.control.phase := by
  simp only [ownSilenceLimit]; (repeat' split) <;> simp
theorem ownSilenceLimit_honest (r : Request) : (ownSilenceLimit r s).Honest s := by
  simp only [ownSilenceLimit]; (repeat' split) <;>
    first | with_reducible exact honest_refuse _ _ | with_reducible exact honest_done _ _ _

@[simp] theorem ownStage_classifier : (ownStage s).state.classifier = s.classifier := by
  simp only [ownStage]; (repeat' split) <;> simp
@[simp] theorem ownStage_map : (ownStage s).state.map = s.map := by
  simp only [ownStage]; (repeat' split) <;> simp
@[simp] theorem ownStage_pending : (ownStage s).state.pending = s.pending := by
  simp only [ownStage]; (repeat' split) <;> simp
@[simp] theorem ownStage_chain_nodes : (ownStage s).state.chain.nodes = s.chain.nodes := by
  simp only [ownStage]; (repeat' split) <;> simp
@[simp] theorem ownStage_chain_mode : (ownStage s).state.chain.mode = s.chain.mode := by
  simp only [ownStage]; (repeat' split) <;> simp
@[simp] theorem ownStage_chain_replyTimeout : (ownStage s).state.chain.replyTimeout = s.chain.replyTimeout := by
  simp only [ownStage]; (repeat' split) <;> simp
@[simp] theorem ownStage_chain_tags : (ownStage s).state.chain.tags = s.chain.tags := by
  simp only [ownStage]; (repeat' split) <;> simp
@[simp] theorem ownStage_chain_slot : (ownStage s).state.chain.slot = s.chain.slot := by
  simp only [ownStage]; (repeat' split) <;> simp
@[simp] theorem ownStage_chain_census : (ownStage s).state.chain.census = s.chain.census := by
  simp only [ownStage]; (repeat' split) <;> simp
theorem ownStage_honest : (ownStage s).Honest s := by
  simp only [ownStage]; (repeat' split) <;>
    first | with_reducible exact honest_refuse _ _ | with_reducible exact honest_done _ _ _

@[simp] theorem ownUnstage_classifier : (ownUnstage s).state.classifier = s.classifier := by
  simp only [ownUnstage]; (repeat' split) <;> simp
@[simp] theorem ownUnstage_map : (ownUnstage s).state.map = s.map := by
  simp only [ownUnstage]; (repeat' split) <;> simp
@[simp] theorem ownUnstage_pending : (ownUnstage s).state.pending = s.pending := by
  simp only [ownUnstage]; (repeat' split) <;> simp
@[simp] theorem ownUnstage_chain_nodes : (ownUnstage s).state.chain.nodes = s.chain.nodes := by
  simp only [ownUnstage]; (repeat' split) <;> simp
@[simp] theorem ownUnstage_chain_mode : (ownUnstage s).state.chain.mode = s.chain.mode := by
  simp only [ownUnstage]; (repeat' split) <;> simp
@[simp] theorem ownUnstage_chain_replyTimeout : (ownUnstage s).state.chain.replyTimeout = s.chain.replyTimeout := by
  simp only [ownUnstage]; (repeat' split) <;> simp
@[simp] theorem ownUnstage_chain_tags : (ownUnstage s).state.chain.tags = s.chain.tags := by
  simp only [ownUnstage]; (repeat' split) <;> simp
@[simp] theorem ownUnstage_chain_slot : (ownUnstage s).state.chain.slot = s.chain.slot := by
  simp only [ownUnstage]; (repeat' split) <;> simp
@[simp] theorem ownUnstage_chain_census : (ownUnstage s).state.chain.census = s.chain.census := by
  simp only [ownUnstage]; (repeat' split) <;> simp
theorem ownUnstage_honest : (ownUnstage s).Honest s := by
  simp only [ownUnstage]; (repeat' split) <;>
    first | with_reducible exact honest_refuse _ _ | with_reducible exact honest_done _ _ _

@[simp] theorem ownStart_classifier : (ownStart s).state.classifier = s.classifier := by
  simp only [ownStart]; (repeat' split) <;> simp
@[simp] theorem ownStart_map : (ownStart s).state.map = s.map := by
  simp only [ownStart]; (repeat' split) <;> simp
@[simp] theorem ownStart_pending : (ownStart s).state.pending = s.pending := by
  simp only [ownStart]; (repeat' split) <;> simp
@[simp] theorem ownStart_chain_nodes : (ownStart s).state.chain.nodes = s.chain.nodes := by
  simp only [ownStart]; (repeat' split) <;> simp
@[simp] theorem ownStart_chain_mode : (ownStart s).state.chain.mode = s.chain.mode := by
  simp only [ownStart]; (repeat' split) <;> simp
@[simp] theorem ownStart_chain_replyTimeout : (ownStart s).state.chain.replyTimeout = s.chain.replyTimeout := by
  simp only [ownStart]; (repeat' split) <;> simp
@[simp] theorem ownStart_chain_tags : (ownStart s).state.chain.tags = s.chain.tags := by
  simp only [ownStart]; (repeat' split) <;> simp
@[simp] theorem ownStart_chain_slot : (ownStart s).state.chain.slot = s.chain.slot := by
  simp only [ownStart]; (repeat' split) <;> simp
@[simp] theorem ownStart_chain_census : (ownStart s).state.chain.census = s.chain.census := by
  simp only [ownStart]; (repeat' split) <;> simp
theorem ownStart_honest : (ownStart s).Honest s := by
  simp only [ownStart]; (repeat' split) <;>
    first | with_reducible exact honest_refuse _ _ | with_reducible exact honest_done _ _ _

@[simp] theorem ownPause_classifier : (ownPause s).state.classifier = s.classifier := by
  simp only [ownPause]; (repeat' split) <;> simp
@[simp] theorem ownPause_map : (ownPause s).state.map = s.map := by
  simp only [ownPause]; (repeat' split) <;> simp
@[simp] theorem ownPause_pending : (ownPause s).state.pending = s.pending := by
  simp only [ownPause]; (repeat' split) <;> simp
@[simp] theorem ownPause_chain_nodes : (ownPause s).state.chain.nodes = s.chain.nodes := by
  simp only [ownPause]; (repeat' split) <;> simp
@[simp] theorem ownPause_chain_mode : (ownPause s).state.chain.mode = s.chain.mode := by
  simp only [ownPause]; (repeat' split) <;> simp
@[simp] theorem ownPause_chain_replyTimeout : (ownPause s).state.chain.replyTimeout = s.chain.replyTimeout := by
  simp only [ownPause]; (repeat' split) <;> simp
@[simp] theorem ownPause_chain_tags : (ownPause s).state.chain.tags = s.chain.tags := by
  simp only [ownPause]; (repeat' split) <;> simp
@[simp] theorem ownPause_chain_slot : (ownPause s).state.chain.slot = s.chain.slot := by
  simp only [ownPause]; (repeat' split) <;> simp
@[simp] theorem ownPause_chain_census : (ownPause s).state.chain.census = s.chain.census := by
  simp only [ownPause]; (repeat' split) <;> simp
theorem ownPause_honest : (ownPause s).Honest s := by
  simp only [ownPause]; (repeat' split) <;>
    first | with_reducible exact honest_refuse _ _ | with_reducible exact honest_done _ _ _

@[simp] theorem ownResume_classifier : (ownResume s).state.classifier = s.classifier := by
  simp only [ownResume]; (repeat' split) <;> simp
@[simp] theorem ownResume_map : (ownResume s).state.map = s.map := by
  simp only [ownResume]; (repeat' split) <;> simp
@[simp] theorem ownResume_pending : (ownResume s).state.pending = s.pending := by
  simp only [ownResume]; (repeat' split) <;> simp
@[simp] theorem ownResume_chain_nodes : (ownResume s).state.chain.nodes = s.chain.nodes := by
  simp only [ownResume]; (repeat' split) <;> simp
@[simp] theorem ownResume_chain_mode : (ownResume s).state.chain.mode = s.chain.mode := by
  simp only [ownResume]; (repeat' split) <;> simp
@[simp] theorem ownResume_chain_replyTimeout : (ownResume s).state.chain.replyTimeout = s.chain.replyTimeout := by
  simp only [ownResume]; (repeat' split) <;> simp
@[simp] theorem ownResume_chain_tags : (ownResume s).state.chain.tags = s.chain.tags := by
  simp only [ownResume]; (repeat' split) <;> simp
@[simp] theorem ownResume_chain_slot : (ownResume s).state.chain.slot = s.chain.slot := by
  simp only [ownResume]; (repeat' split) <;> simp
@[simp] theorem ownResume_chain_census : (ownResume s).state.chain.census = s.chain.census := by
  simp only [ownResume]; (repeat' split) <;> simp
theorem ownResume_honest : (ownResume s).Honest s := by
  simp only [ownResume]; (repeat' split) <;>
    first | with_reducible exact honest_refuse _ _ | with_reducible exact honest_done _ _ _

@[simp] theorem ownAbort_classifier : (ownAbort s).state.classifier = s.classifier := by
  simp only [ownAbort]; (repeat' split) <;> simp
@[simp] theorem ownAbort_map : (ownAbort s).state.map = s.map := by
  simp only [ownAbort]; (repeat' split) <;> simp
@[simp] theorem ownAbort_pending : (ownAbort s).state.pending = s.pending := by
  simp only [ownAbort]; (repeat' split) <;> simp
@[simp] theorem ownAbort_chain_nodes : (ownAbort s).state.chain.nodes = s.chain.nodes := by
  simp only [ownAbort]; (repeat' split) <;> simp
@[simp] theorem ownAbort_chain_mode : (ownAbort s).state.chain.mode = s.chain.mode := by
  simp only [ownAbort]; (repeat' split) <;> simp
@[simp] theorem ownAbort_chain_replyTimeout : (ownAbort s).state.chain.replyTimeout = s.chain.replyTimeout := by
  simp only [ownAbort]; (repeat' split) <;> simp
@[simp] theorem ownAbort_chain_tags : (ownAbort s).state.chain.tags = s.chain.tags := by
  simp only [ownAbort]; (repeat' split) <;> simp
@[simp] theorem ownAbort_chain_slot : (ownAbort s).state.chain.slot = s.chain.slot := by
  simp only [ownAbort]; (repeat' split) <;> simp
@[simp] theorem ownAbort_chain_census : (ownAbort s).state.chain.census = s.chain.census := by
  simp only [ownAbort]; (repeat' split) <;> simp
theorem ownAbort_honest : (ownAbort s).Honest s := by
  simp only [ownAbort]; (repeat' split) <;>
    first | with_reducible exact honest_refuse _ _ | with_reducible exact honest_done _ _ _

@[simp] theorem ownGoalConfig_stations (r : Request) : (ownGoalConfig r s).state.stations = s.stations := by
  simp only [ownGoalConfig]; (repeat' split) <;> simp
@[simp] theorem ownGoalConfig_classifier (r : Request) : (ownGoalConfig r s).state.classifier = s.classifier := by
  simp only [ownGoalConfig]; (repeat' split) <;> simp
@[simp] theorem ownGoalConfig_map (r : Request) : (ownGoalConfig r s).state.map = s.map := by
  simp only [ownGoalConfig]; (repeat' split) <;> simp
@[simp] theorem ownGoalConfig_claims (r : Request) : (ownGoalConfig r s).state.claims = s.claims := by
  simp only [ownGoalConfig]; (repeat' split) <;> simp
@[simp] theorem ownGoalConfig_credit (r : Request) : (ownGoalConfig r s).state.credit = s.credit := by
  simp only [ownGoalConfig]; (repeat' split) <;> simp
@[simp] theorem ownGoalConfig_chain (r : Request) : (ownGoalConfig r s).state.chain = s.chain := by
  simp only [ownGoalConfig]; (repeat' split) <;> simp
@[simp] theorem ownGoalConfig_control (r : Request) : (ownGoalConfig r s).state.control = s.control := by
  simp only [ownGoalConfig]; (repeat' split) <;> simp
@[simp] theorem ownGoalConfig_pending (r : Request) : (ownGoalConfig r s).state.pending = s.pending := by
  simp only [ownGoalConfig]; (repeat' split) <;> simp
theorem ownGoalConfig_honest (r : Request) : (ownGoalConfig r s).Honest s := by
  simp only [ownGoalConfig]; (repeat' split) <;>
    first | with_reducible exact honest_refuse _ _ | with_reducible exact honest_done _ _ _

@[simp] theorem ownRuling_stations (r : Request) : (ownRuling r s).state.stations = s.stations := by
  simp only [ownRuling]; (repeat' split) <;> simp
@[simp] theorem ownRuling_classifier (r : Request) : (ownRuling r s).state.classifier = s.classifier := by
  simp only [ownRuling]; (repeat' split) <;> simp
@[simp] theorem ownRuling_map (r : Request) : (ownRuling r s).state.map = s.map := by
  simp only [ownRuling]; (repeat' split) <;> simp
@[simp] theorem ownRuling_claims (r : Request) : (ownRuling r s).state.claims = s.claims := by
  simp only [ownRuling]; (repeat' split) <;> simp
@[simp] theorem ownRuling_credit (r : Request) : (ownRuling r s).state.credit = s.credit := by
  simp only [ownRuling]; (repeat' split) <;> simp
@[simp] theorem ownRuling_chain (r : Request) : (ownRuling r s).state.chain = s.chain := by
  simp only [ownRuling]; (repeat' split) <;> simp
@[simp] theorem ownRuling_control (r : Request) : (ownRuling r s).state.control = s.control := by
  simp only [ownRuling]; (repeat' split) <;> simp
@[simp] theorem ownRuling_pending (r : Request) : (ownRuling r s).state.pending = s.pending := by
  simp only [ownRuling]; (repeat' split) <;> simp
theorem ownRuling_honest (r : Request) : (ownRuling r s).Honest s := by
  simp only [ownRuling]; (repeat' split) <;>
    first | with_reducible exact honest_refuse _ _ | with_reducible exact honest_done _ _ _

@[simp] theorem ownPoints_stations (r : Request) (add : Tally → Alliance → Nat → Tally) : (ownPoints r add s).state.stations = s.stations := by
  simp only [ownPoints]; (repeat' split) <;> simp
@[simp] theorem ownPoints_classifier (r : Request) (add : Tally → Alliance → Nat → Tally) : (ownPoints r add s).state.classifier = s.classifier := by
  simp only [ownPoints]; (repeat' split) <;> simp
@[simp] theorem ownPoints_map (r : Request) (add : Tally → Alliance → Nat → Tally) : (ownPoints r add s).state.map = s.map := by
  simp only [ownPoints]; (repeat' split) <;> simp
@[simp] theorem ownPoints_claims (r : Request) (add : Tally → Alliance → Nat → Tally) : (ownPoints r add s).state.claims = s.claims := by
  simp only [ownPoints]; (repeat' split) <;> simp
@[simp] theorem ownPoints_credit (r : Request) (add : Tally → Alliance → Nat → Tally) : (ownPoints r add s).state.credit = s.credit := by
  simp only [ownPoints]; (repeat' split) <;> simp
@[simp] theorem ownPoints_chain (r : Request) (add : Tally → Alliance → Nat → Tally) : (ownPoints r add s).state.chain = s.chain := by
  simp only [ownPoints]; (repeat' split) <;> simp
@[simp] theorem ownPoints_control (r : Request) (add : Tally → Alliance → Nat → Tally) : (ownPoints r add s).state.control = s.control := by
  simp only [ownPoints]; (repeat' split) <;> simp
@[simp] theorem ownPoints_pending (r : Request) (add : Tally → Alliance → Nat → Tally) : (ownPoints r add s).state.pending = s.pending := by
  simp only [ownPoints]; (repeat' split) <;> simp
theorem ownPoints_honest (r : Request) (add : Tally → Alliance → Nat → Tally) : (ownPoints r add s).Honest s := by
  simp only [ownPoints]; (repeat' split) <;> first | with_reducible exact honest_refuse _ _ | with_reducible exact honest_done _ _ _

end Sys2Proof.Machine
end

