-- ==== Sys2Proof/Laws/Areas.lean ====
section
/-! SUPPORT. What the operations do to the queue areas: none but AREA, JOIN_AREA and the resets lays an area out or joins it
anew, and none lets an area hold more frames than its capacity or than its peak. -/

namespace Sys2Proof.Machine

/-- Layouts and joins are as before, an area within its capacity stays within it, and its peak stays at its count or above
and rises to its capacity at most. -/
structure AreasKept (s t : State) : Prop where
  layout : ∀ a, (t.area a).start = (s.area a).start ∧ (t.area a).stop = (s.area a).stop ∧ (t.area a).join = (s.area a).join
  room : ∀ a, (s.area a).frames.length ≤ (s.area a).capacity → (t.area a).frames.length ≤ (t.area a).capacity
  peak : ∀ a, (s.area a).frames.length ≤ (s.area a).peak → (t.area a).frames.length ≤ (t.area a).peak
  highest : ∀ a, (s.area a).frames.length ≤ (s.area a).capacity →
    (t.area a).peak ≤ max (s.area a).peak (s.area a).capacity

namespace AreasKept

theorem refl (s : State) : AreasKept s s :=
  ⟨fun _ => ⟨rfl, rfl, rfl⟩, fun _ h => h, fun _ h => h, fun _ _ => Nat.le_max_left _ _⟩

theorem trans {s t u : State} (h : AreasKept s t) (k : AreasKept t u) : AreasKept s u :=
  ⟨fun a => ⟨(k.layout a).1.trans (h.layout a).1, (k.layout a).2.1.trans (h.layout a).2.1,
      (k.layout a).2.2.trans (h.layout a).2.2⟩,
    fun a x => k.room a (h.room a x), fun a x => k.peak a (h.peak a x), fun a x => by
      have first := h.highest a x
      have second := k.highest a (h.room a x)
      have same : (t.area a).capacity = (s.area a).capacity := by
        simp only [Area.capacity, (h.layout a).1, (h.layout a).2.1]
      omega⟩

theorem out {s t : State} (h : OutputOnly s t) : AreasKept s t := ⟨h.layout, h.room, h.peak, h.highest⟩

theorem of_eq {s t : State} (h : t.areas = s.areas) : AreasKept s t := by
  constructor <;> intro a <;> simp [State.area, h]

/-- Operations on other blocks before one that keeps the areas. -/
theorem after {s t u : State} (k : AreasKept t u) (h : t.areas = s.areas) : AreasKept s u := (of_eq h).trans k

theorem foldl {α : Type} {f : State → α → State} (h : ∀ s x, AreasKept s (f s x)) (l : List α) (s : State) :
    AreasKept s (l.foldl f s) := by
  induction l generalizing s with
  | nil => exact refl s
  | cons x l ih => exact (h s x).trans (ih (f s x))

/-- Every area keeps its layout and join and loses frames alone. -/
theorem shrink {s t : State} (f : Area → Area)
    (hf : ∀ x, (f x).start = x.start ∧ (f x).stop = x.stop ∧ (f x).join = x.join ∧ (f x).frames.length ≤ x.frames.length
      ∧ (f x).peak = x.peak)
    (h : t.areas = s.areas.map f) : AreasKept s t := by
  have e : ∀ a, t.area a = f (s.area a) := fun a => by simp [State.area, h]
  constructor
  · intro a; rw [e]; exact ⟨(hf _).1, (hf _).2.1, (hf _).2.2.1⟩
  · intro a x; rw [e]
    have := hf (s.area a)
    simp only [Area.capacity, this.1, this.2.1] at *
    omega
  · intro a x; rw [e]
    have := hf (s.area a)
    omega
  · intro a _; rw [e, (hf _).2.2.2.2]; exact Nat.le_max_left _ _

theorem setArea {s : State} {a : AreaId} {x : Area}
    (hl : x.start = (s.area a).start ∧ x.stop = (s.area a).stop ∧ x.join = (s.area a).join)
    (hr : (s.area a).frames.length ≤ (s.area a).capacity → x.frames.length ≤ x.capacity)
    (hp : (s.area a).frames.length ≤ (s.area a).peak → x.frames.length ≤ x.peak)
    (hm : (s.area a).frames.length ≤ (s.area a).capacity → x.peak ≤ max (s.area a).peak (s.area a).capacity) :
    AreasKept s (s.setArea a x) := by
  constructor
  · intro b; rw [State.area_setArea]; split
    · next h => subst h; exact hl
    · exact ⟨rfl, rfl, rfl⟩
  · intro b h; rw [State.area_setArea]; split
    · next e => subst e; exact hr h
    · exact h
  · intro b h; rw [State.area_setArea]; split
    · next e => subst e; exact hp h
    · exact h
  · intro b h; rw [State.area_setArea]; split
    · next e => subst e; exact hm h
    · exact Nat.le_max_left _ _

theorem popFrame (a : AreaId) (s : State) : AreasKept s (popFrame a s) :=
  setArea ⟨rfl, rfl, rfl⟩ (fun h => by simp only [List.length_tail, Area.capacity] at *; omega)
    (fun h => by simp only [List.length_tail]; omega) fun _ => Nat.le_max_left _ _

theorem purgeCommands (n : StationId) (s : State) : AreasKept s (purgeCommands n s) := by
  refine shrink (fun a => if a.servesConsumer .chain then
    { a with frames := a.frames.filter fun f => !(decide (f.kind = .element) && decide (f.source = stationField n)) }
    else a) (fun x => ?_) rfl
  split
  · exact ⟨rfl, rfl, rfl, List.length_filter_le _ _, rfl⟩
  · exact ⟨rfl, rfl, rfl, Nat.le_refl _, rfl⟩

theorem purgePilot (s : State) : AreasKept s (purgePilot s) :=
  shrink (fun x => { x with frames := x.frames.filter fun f => decide (f.kind ≠ .pilot) })
    (fun _ => ⟨rfl, rfl, rfl, List.length_filter_le _ _, rfl⟩) rfl

theorem emptyStations (s : State) : AreasKept s (emptyStations s) := by
  refine shrink (fun x => if x.servesConsumer (.port .ml) then x else { x with frames := [] }) (fun x => ?_) rfl
  split
  · exact ⟨rfl, rfl, rfl, Nat.le_refl _, rfl⟩
  · exact ⟨rfl, rfl, rfl, Nat.zero_le _, rfl⟩

/-- An area with room takes one frame more. -/
theorem store (s : State) (a : AreaId) (f : Frame) (h : (s.area a).full = false) :
    AreasKept s (s.setArea a ((s.area a).store f)) := by
  simp only [Area.full, decide_eq_false_iff_not, Nat.not_le] at h
  refine setArea ⟨rfl, rfl, rfl⟩ (fun _ => ?_) (fun _ => ?_) fun _ => ?_
  · simp only [Area.store, Area.capacity, List.length_append, List.length_singleton]
    exact h
  · simp only [Area.store, List.length_append, List.length_singleton]
    exact Nat.le_max_right _ _
  · simp only [Area.store]
    omega

theorem clearCounts (s : State) (a : AreaId) : AreasKept s (s.setArea a (s.area a).clearCounts) :=
  setArea ⟨rfl, rfl, rfl⟩ (fun h => h) (fun _ => Nat.le_refl _) fun h => by
    simp only [Area.clearCounts]
    omega

theorem countDrop (s : State) (a : AreaId) : AreasKept s (dropAt a s) := out (.dropAt a s)

/-! ### Station operations -/

theorem handOver (q : Position) (s : State) : AreasKept s (handOver q s) := by
  simp only [Machine.handOver]; split
  · exact refl s
  · exact (out (.answer _ _ _)).after rfl

theorem removeHold (n : StationId) (s : State) (q : Position) : AreasKept s (removeHold n s q) := by
  simp only [Machine.removeHold]; split
  · exact (handOver _ _).after rfl
  · exact refl s

theorem removeClaims (n : StationId) (s : State) : AreasKept s (removeClaims n s) :=
  (foldl (fun s q => removeHold n s q) _ (removeWaits n s)).after rfl

theorem leaveLinked (n : StationId) (s : State) : AreasKept s (leaveLinked n s) :=
  ((removeClaims n s).trans (purgeCommands n _)).trans (of_eq (by simp [Machine.leaveLinked]))

theorem evaluateHold (s : State) (n : StationId) : AreasKept s (evaluateHold s n) := by
  simp only [Machine.evaluateHold]; (repeat' split)
  · exact refl s
  · exact (out (.arenaTo _ _ _)).after (by simp)
  · exact (out (.arenaTo _ _ _)).after (by simp)
  · exact of_eq (by simp)

theorem evaluatePartners (m : StationId) (s : State) : AreasKept s (evaluatePartners m s) :=
  foldl (fun s n => by split; exact evaluateHold s n; exact refl s) _ _

theorem evaluateAll (s : State) : AreasKept s (evaluateAll s) := foldl evaluateHold _ _

theorem holdEntry (new : Phase) (s : State) : AreasKept s (holdEntry new s) := by
  simp only [Machine.holdEntry]; split
  · exact evaluateAll s
  · exact of_eq (by simp)

theorem changeStation (n : StationId) (x : Station) (arena : Option ArenaNotice) (s : State) :
    AreasKept s (changeStation n x arena s) := by
  simp only [Machine.changeStation]
  refine AreasKept.trans ?_ (evaluatePartners _ _)
  refine AreasKept.trans ?_ (out (.stationChange _ _ _ _))
  have h : AreasKept s (if (s.station n).isLinked then Machine.leaveLinked n (s.setStation n x) else s.setStation n x) := by
    split
    · exact ((of_eq rfl : AreasKept s (s.setStation n x))).trans (leaveLinked _ _)
    · exact of_eq rfl
  refine h.trans ?_
  generalize (if (s.station n).isLinked then Machine.leaveLinked n (s.setStation n x) else s.setStation n x) = u
  split
  · exact out (.arenaTo _ _ _)
  · exact refl _

theorem disableByVerdict (n : StationId) (s : State) : AreasKept s (disableByVerdict n s) := by
  simp only [Machine.disableByVerdict, disableStation]; split
  all_goals first | with_reducible exact refl s | exact changeStation _ _ _ _

theorem quietExpired (n : StationId) (s : State) : AreasKept s (quietExpired n s) := by
  simp only [Machine.quietExpired]; split
  · exact changeStation _ _ _ _
  · exact of_eq rfl

theorem resetStation (s : State) (n : StationId) : AreasKept s (resetStation s n) := by
  simp only [Machine.resetStation]; split
  · exact refl s
  · exact of_eq rfl
  all_goals exact changeStation _ _ _ _

theorem afterLink (n : StationId) (old : StationState) (s : State) : AreasKept s (afterLink n old s) := by
  simp only [Machine.afterLink]
  have h := (out (OutputOnly.stationChange n old .linked s)).trans (evaluatePartners n _)
  split
  · exact h.trans (out (.arenaTo _ _ _))
  · exact h

theorem handleJoin (k : RadioPort) (n : StationId) (f : FrameBody) (s : State) : AreasKept s (handleJoin k n f s) := by
  have h : ∀ c x, AreasKept s (answerJoin k n c x (linkRecord n k s)) := fun c x => (out (.answerJoin _ _ _ _ _)).after rfl
  have g : ∀ c x, AreasKept s (answerJoin k n c x s) := fun c x => out (.answerJoin _ _ _ _ _)
  have j : ∀ o u, AreasKept s u → AreasKept s (Machine.afterLink n o u) := fun o u h => h.trans (afterLink _ _ _)
  simp only [Machine.handleJoin]
  split
  · exact refl s
  · split
    · exact refl s
    · split
      · exact j _ _ (h _ _)
      · exact g _ _
    · split
      · exact j _ _ (h _ _)
      · exact g _ _
    · exact h _ _
    · exact g _ _
    · exact g _ _

theorem handleBeacon (k : RadioPort) (n : StationId) (s : State) : AreasKept s (handleBeacon k n s) := by
  simp only [Machine.handleBeacon]; split
  · exact (afterLink _ _ _).after rfl
  · exact of_eq rfl
  all_goals exact refl s

/-! ### Claims, commands and the stages of a frame -/

theorem judgeClaim (n : StationId) (f : FrameBody) (q : Position) (s : State) : AreasKept s (judgeClaim n f q s) := by
  simp only [Machine.judgeClaim]; (repeat' split)
  all_goals first | exact out (.answerClaim _ _ _ _ _ _ _) | exact (out (.answerClaim _ _ _ _ _ _ _)).after rfl

theorem handleClaim (n : StationId) (f : FrameBody) (s : State) : AreasKept s (handleClaim n f s) := by
  simp only [Machine.handleClaim]; (repeat' split)
  all_goals first | exact out (.answerClaim _ _ _ _ _ _ _) | exact judgeClaim _ _ _ _

theorem handleRelease (n : StationId) (f : FrameBody) (s : State) : AreasKept s (handleRelease n f s) := by
  simp only [Machine.handleRelease]; (repeat' split)
  all_goals first
    | exact out (.answerClaim _ _ _ _ _ _ _)
    | (refine AreasKept.trans ?_ (handOver _ _); exact (out (.answerClaim _ _ _ _ _ _ _)).after rfl)
    | exact (out (.answerClaim _ _ _ _ _ _ _)).after rfl

theorem holdExpired (q : Position) (s : State) : AreasKept s (holdExpired q s) := by
  simp only [Machine.holdExpired]; split
  · exact refl s
  · refine AreasKept.trans ?_ (handOver _ _); exact (out (.answer _ _ _)).after rfl

theorem barExpired (q : Position) (s : State) : AreasKept s (barExpired q s) := by
  simp only [Machine.barExpired]; split
  · exact (handOver _ _).after rfl
  · exact of_eq rfl

theorem chargeAndStore (n : StationId) (f : Frame) (q : Position) (steer : Option AreaId) (s : State) :
    AreasKept s (chargeAndStore n f q steer s) := by
  simp only [Machine.chargeAndStore]; (repeat' split)
  · exact out (.refuseElement _ _ _ _ _ _)
  · exact out (.refuseElement _ _ _ _ _ _)
  · exact out ((OutputOnly.dropAt _ _).trans (.refuseElement _ _ _ _ _ _))
  · next h => exact (store (s.setBalance n _) _ f (by simpa using h)).after rfl

theorem handleElement (n : StationId) (f : Frame) (steer : Option AreaId) (s : State) :
    AreasKept s (handleElement n f steer s) := by
  simp only [Machine.handleElement, admitCommand]; (repeat' split)
  all_goals first | exact out (.refuseElement _ _ _ _ _ _) | exact chargeAndStore _ _ _ _ _

theorem handleFrame (k : RadioPort) (n : StationId) (f : Frame) (steer : Option AreaId) (s : State) :
    AreasKept s (handleFrame k n f steer s) := by
  simp only [Machine.handleFrame]; split
  all_goals first
    | exact handleJoin _ _ _ _
    | exact handleBeacon _ _ _
    | exact out (.handleForward _ _ _ _)
    | exact handleElement _ _ _ _
    | exact handleClaim _ _ _
    | exact handleRelease _ _ _
    | exact refl s

theorem applyVerdict (u : Rule) (k : RadioPort) (n : StationId) (f : Frame) (s : State) :
    AreasKept s (applyVerdict u k n f s) := by
  simp only [Machine.applyVerdict]; split
  · exact handleFrame _ _ _ _ _
  · exact (out (.offerReport _ _ _)).trans (handleFrame _ _ _ _ _)
  · exact handleFrame _ _ _ _ _
  · exact out (.denyFrame _ _ _ _)
  · exact refl s
  · exact disableByVerdict _ _

theorem stationFrame (k : RadioPort) (f : Frame) (s : State) : AreasKept s (stationFrame k f s) := by
  have h : ∀ n u, AreasKept u (passPhaseGate k n f u) := fun n u => by
    simp only [passPhaseGate, applyRules]; (repeat' split)
    · exact (applyVerdict _ _ _ _ _).after (by simp)
    · exact handleFrame _ _ _ _ _
    · exact refl u
    · exact out (.refuseFrame _ _ _ _)
  simp only [Machine.stationFrame]; (repeat' split)
  all_goals first
    | exact refl s
    | exact out (.answerJoin _ _ _ _ _)
    | exact of_eq (by simp)
    | exact (h _ _).after (by simp)

/-! ### The chain -/

theorem hear (q : Position) (s : State) : AreasKept s (hear q s) := by
  simp only [Machine.hear]; split
  · exact refl s
  · exact of_eq rfl
  · exact of_eq rfl
  · exact (out (.nodeChange _ _ _ _ _)).after rfl

theorem loseNode (q : Position) (s : State) : AreasKept s (loseNode q s) := by
  have h : ∀ s k, AreasKept s (switchEnd q k s) := fun s k => by
    simp only [switchEnd]; split
    · exact (out (.nodeChange _ _ _ _ _)).after rfl
    · exact refl s
  have g : ∀ x : Node, AreasKept s (nodeChange q .ready .lost x.servingEnd
      (s.setNode q { x with state := .lost, misses := Config.maxMisses })) := fun x =>
    (out (.nodeChange _ _ _ _ _)).after rfl
  simp only [Machine.loseNode]; split
  · exact (g _).trans (foldl h _ _)
  · exact g _

theorem chargeMiss (q : Position) (s : State) : AreasKept s (chargeMiss q s) := by
  simp only [Machine.chargeMiss]; (repeat' split)
  all_goals first | exact refl s | exact loseNode _ _ | exact of_eq rfl

theorem endTransaction (t : TagId) (outcome : AnswerCode) (value : BitVec 16) (s : State) :
    AreasKept s (endTransaction t outcome value s) := by
  simp only [Machine.endTransaction]; (repeat' split)
  all_goals first
    | exact refl s
    | exact (out (.answer _ _ _)).after rfl
    | exact (out (.laterResult _ _ _ _)).after rfl
    | exact of_eq rfl

theorem abortTags (p : TagRecord → Bool) (s : State) : AreasKept s (abortTags p s) :=
  foldl (fun s t => by split; exact endTransaction _ _ _ _; exact refl s) _ _

theorem replyTimedOut (t : TagId) (s : State) : AreasKept s (replyTimedOut t s) := by
  simp only [Machine.replyTimedOut]; split
  · exact refl s
  · exact (endTransaction _ _ _ _).trans (chargeMiss _ _)

theorem dequeueOne (s : State) : AreasKept s (dequeueOne s) := by
  have h : ∀ t f u, AreasKept u (recheckAndSend t f u) := fun t f u => by
    simp only [recheckAndSend]; (repeat' split)
    · exact out (.answer _ _ _)
    · exact of_eq (by simp)
    · exact refl u
  simp only [Machine.dequeueOne]; (repeat' split)
  · exact refl s
  · exact refl s
  · exact (popFrame _ s).trans (h _ _ _)

theorem sendPending (s : State) : AreasKept s (sendPending s) := by
  simp only [Machine.sendPending]; split
  · exact refl s
  · exact of_eq (by simp)

theorem continueCensus (c : Census) (s : State) : AreasKept s (continueCensus c s) := by
  have h : ∀ g, AreasKept s (finishCensus g s) := fun g => by
    simp only [finishCensus]; exact (out (.laterResult _ _ _ _)).after (by simp)
  simp only [Machine.continueCensus]; (repeat' split)
  all_goals first | exact h _ | exact of_eq (by simp)

theorem takeReply (q : Position) (tag status : Byte) (value : BitVec 16) (s : State) :
    AreasKept s (takeReply q tag status value s) := by
  simp only [Machine.takeReply]; (repeat' split)
  · exact refl s
  · exact hear _ _
  · exact (hear _ _).trans (endTransaction _ _ _ _)

theorem takeSense (q : Position) (code : Byte) (s : State) : AreasKept s (takeSense q code s) := by
  simp only [Machine.takeSense]; split
  · exact refl s
  · exact (hear q s).trans (of_eq (by simp))

theorem takeProbeReply (e : ChainEnd) (q : Position) (kind : NodeKind) (s : State) :
    AreasKept s (takeProbeReply e q kind s) := by
  simp only [Machine.takeProbeReply]; split
  · exact hear _ _
  · exact (hear _ _).trans ((continueCensus _ _).after rfl)

theorem resetChainEnd (e : ChainEnd) (s : State) : AreasKept s (resetChainEnd e s) := by
  have h : ∀ u, AreasKept u (abandonProbe e u) := fun u => by
    simp only [abandonProbe]; split
    · exact refl u
    · exact continueCensus _ _
  have g : ∀ u, AreasKept u (resendHalt e u) := fun u => of_eq (by simp)
  have k : AreasKept s (s.setSide e (s.side e).cutOff) := of_eq (by simp)
  exact ((k.trans (abortTags _ _)).trans (h _)).trans (g _)

theorem resetNode (q : Position) (s : State) : AreasKept s (resetNode q s) := by
  have h : ∀ e m, AreasKept s (Machine.abortTags (fun r => decide (r.position = q)) (sendOn e m s)) :=
    fun e m => (of_eq (by simp) : AreasKept s (sendOn e m s)).trans (abortTags _ _)
  have g : ∀ o e u, AreasKept u (nodeChange q o .ready e u) := fun o e u => out (.nodeChange _ _ _ _ _)
  simp only [Machine.resetNode]
  refine (h (s.node q).servingEnd (addressedMessage .resetNode q)).trans ?_
  generalize Machine.abortTags (fun r => decide (r.position = q))
    (sendOn (s.node q).servingEnd (addressedMessage .resetNode q) s) = u
  (repeat' split)
  all_goals first
    | (refine AreasKept.trans ?_ (g _ _ _); exact of_eq (by simp))
    | exact of_eq (by simp)

/-! ### The tally, the phases and the resets -/

theorem compareGoal (g : GoalSlot) (s : State) : AreasKept s (compareGoal g s) :=
  foldl (fun s i => by
    simp only [compareRecord]; (repeat' split)
    · exact refl s
    · exact of_eq rfl
    · exact (out (.notice _ _ _)).after rfl) _ _

theorem settleExpired (g : GoalSlot) (s : State) : AreasKept s (settleExpired g s) := (compareGoal g _).after rfl

theorem endFinalSettle (s : State) : AreasKept s (endFinalSettle s) := by
  have h : ∀ u : State, AreasKept u ((List.finRange 8).foldl compareConfigured u) := foldl (fun s g => by
    simp only [compareConfigured]; split
    · exact compareGoal _ _
    · exact refl s) _
  have k : ∀ n d x (u : State), AreasKept u (notice n d (u.setTally x)) := fun n d x u =>
    (of_eq rfl : AreasKept u (u.setTally x)).trans (out (.notice _ _ _))
  simp only [Machine.endFinalSettle]
  refine AreasKept.trans ?_ (k _ _ _ _)
  exact (of_eq rfl : AreasKept s (s.setTally { s.tally with settle := .fill 8 none })).trans (h _)

theorem tallyEntry (new : Phase) (s : State) : AreasKept s (tallyEntry new s) := by
  simp only [Machine.tallyEntry, startFinalSettle]; (repeat' split)
  · exact (endFinalSettle _).after rfl
  · exact of_eq rfl
  · exact refl s

theorem queueEntry (old new : Phase) (s : State) : AreasKept s (queueEntry old new s) := by
  simp only [Machine.queueEntry]; split
  · exact purgePilot s
  · exact refl s

theorem enterPhase (new : Phase) (timer : Nat) (s : State) : AreasKept s (enterPhase new timer s) := by
  simp only [Machine.enterPhase]
  refine AreasKept.trans ?_ (tallyEntry _ _)
  refine AreasKept.trans ?_ (of_eq (chainEntry_areas _ _ _))
  refine AreasKept.trans ?_ (queueEntry _ _ _)
  refine AreasKept.trans ?_ (of_eq (creditEntry_areas _ _ _))
  refine AreasKept.trans ?_ (of_eq (claimEntry_areas _ _))
  refine AreasKept.trans ?_ (holdEntry _ _)
  exact (out (.announcePhase _)).after rfl

theorem passThrough (s : State) : AreasKept s (passThrough s) := by
  have h : ∀ k u, AreasKept u (passThroughIn k u) := fun k => by
    induction k with
    | zero => exact fun u => refl u
    | succ k ih =>
      intro u
      simp only [passThroughIn]; (repeat' split)
      · exact (enterPhase _ _ _).trans (ih _)
      · exact refl u
      · exact refl u
  exact h 4 s

theorem fieldReset (s : State) : AreasKept s (fieldReset s) := by
  have g : ∀ u, AreasKept u (Machine.emptyStations (fillCredit (clearClaims u))) := fun u => (emptyStations _).after rfl
  have k : ∀ u, AreasKept u (resetMatch u) := fun u => of_eq rfl
  have h : AreasKept s (resetMatch (Machine.emptyStations (fillCredit (clearClaims
      ((List.finRange 32).foldl Machine.resetStation s))))) :=
    ((foldl resetStation _ s).trans (g _)).trans (k _)
  simp only [Machine.fieldReset]; split
  · exact h.trans (enterPhase _ _ _)
  · exact h

theorem elapse (n : Nat) (s : State) : AreasKept s (elapse n s) := of_eq (by simp)

theorem takeFrame (p : Port) (s : State) : AreasKept s (takeFrame p s) := by
  have k : ∀ x u, AreasKept u (u.setPort p x) := fun x u => of_eq (by simp)
  simp only [Machine.takeFrame]; (repeat' split)
  · exact refl s
  · exact refl s
  · exact (popFrame _ s).trans (k _ _)

end AreasKept

end Sys2Proof.Machine
end

