-- ==== Sys2Proof/Laws/Claims.lean ====
section
/-! SUPPORT. What the operations of the claim table do to its entries: who holds and who waits after a hand-over, a removal
of a station's claims, and the passage of time. -/

namespace Sys2Proof.Machine

/-! ### One entry -/

theorem ClaimEntry.waits_iff {e : ClaimEntry} {n : StationId} : e.waits n = true ↔ ∃ w ∈ e.waiters, w.station = n := by
  simp [ClaimEntry.waits]

theorem ClaimEntry.heldBy_iff {e : ClaimEntry} {n : StationId} :
    e.heldBy n = true ↔ ∃ h, e.hold = some h ∧ h.holder = n := by
  simp only [ClaimEntry.heldBy]
  cases e.hold <;> simp

@[simp] theorem ClaimEntry.free_waits (n : StationId) : ClaimEntry.free.waits n = false := rfl
@[simp] theorem ClaimEntry.free_heldBy (n : StationId) : ClaimEntry.free.heldBy n = false := rfl

/-- An entry is held by one station at most. -/
theorem ClaimEntry.heldBy_unique {e : ClaimEntry} {m n : StationId} (h : e.heldBy m = true) (k : e.heldBy n = true) :
    m = n := by
  obtain ⟨x, hx, rfl⟩ := ClaimEntry.heldBy_iff.mp h
  obtain ⟨y, hy, rfl⟩ := ClaimEntry.heldBy_iff.mp k
  rw [hx] at hy
  injection hy with e
  rw [e]

/-! ### The table -/

/-- Where every entry is FREE and empty, the table is as its rules keep it. -/
theorem claimsFit_of_free {s : State} (h : ∀ q, s.claim q = .free) : s.ClaimsFit := by
  have none_held : ∀ n, s.claimCount n = 0 := fun n => by
    simp only [State.claimCount, Table.count, List.countP_eq_zero]
    intro e he
    obtain ⟨q, rfl⟩ := Table.mem_items.mp he
    have free : s.claims.get q = .free := h q
    simp [free]
  constructor
  case lists => intro q; simp [h, ClaimEntry.free]
  case linked => intro q n x; simp [h] at x
  case once => intro p q n x; simp [h] at x
  case distinct => intro q; simp [h, ClaimEntry.free]
  case apart => intro q n x; simp [h] at x
  case held => intro n; simp [none_held]
  case heldWaiting => intro q n x; simp [h] at x
  case barred => intro q _ w hw; simp [h, ClaimEntry.free] at hw
  case idle => exact fun _ => h
  case partners => exact fun q _ => h q

/-! ### The hand-over (R87) -/

/-- Entries are read alike in states with one claim table. -/
theorem claim_congr {s t : State} (h : t.claims = s.claims) (q : Position) : t.claim q = s.claim q := by
  simp [State.claim, h]

/-- A hand-over with no eligible waiter does nothing. -/
theorem handOver_none {q : Position} {s : State} (h : (s.claim q).waiters.find? (s.eligible (s.claim q)) = none) :
    handOver q s = s := by simp [handOver, h]

/-- A hand-over touches its own entry alone. -/
theorem handOver_claim_other {p q : Position} (h : p ≠ q) (s : State) : (handOver q s).claim p = s.claim p := by
  simp only [handOver]
  split
  · rfl
  · next w _ =>
    rw [claim_congr (answer_claims _ _ _)]
    simp [State.claim, State.setClaim, Table.get_set, h]

/-- The entry handed over is as it was, or its oldest eligible waiter has left the list and holds it. -/
theorem handOver_claim_self (q : Position) (s : State) :
    (handOver q s).claim q =
      match (s.claim q).waiters.find? (s.eligible (s.claim q)) with
      | none => s.claim q
      | some w => { s.claim q with
          hold := some { holder := w.station, remaining := grantedHold w.requested (s.profile q).maxHold }
          waiters := (s.claim q).waiters.eraseP (s.eligible (s.claim q)) } := by
  cases e : (s.claim q).waiters.find? (s.eligible (s.claim q)) with
  | none => simp [handOver, e]
  | some w =>
    simp only [handOver, e]
    rw [claim_congr (answer_claims _ _ _)]
    simp [State.claim, State.setClaim]

/-- An entry that is FREE after a hand-over has no eligible waiter (R73, R87). -/
theorem handOver_settled {q : Position} {s : State} (h : ((handOver q s).claim q).hold = none) :
    ∀ w ∈ ((handOver q s).claim q).waiters, s.eligible ((handOver q s).claim q) w = false := by
  rw [handOver_claim_self] at *
  split at h
  · next e =>
    intro w hw
    simpa using List.find?_eq_none.mp e w hw
  · simp at h

/-! ### The claims of a station that leaves LINKED (R89, R90) -/

theorem removeWaits_claim (n : StationId) (s : State) (q : Position) :
    (removeWaits n s).claim q =
      { s.claim q with waiters := (s.claim q).waiters.filter fun w => decide (w.station ≠ n) } := by
  simp [State.claim, removeWaits]

/-- No entry lists a station whose waits have been removed. -/
theorem removeWaits_waits (n : StationId) (s : State) (q : Position) : ((removeWaits n s).claim q).waits n = false := by
  simp [removeWaits_claim, ClaimEntry.waits]

/-- The removal of a hold touches its own entry alone. -/
theorem removeHold_claim_other {p q : Position} (h : p ≠ q) (n : StationId) (s : State) :
    (removeHold n s q).claim p = s.claim p := by
  simp only [removeHold]
  split
  · rw [handOver_claim_other h]
    simp [State.claim, State.setClaim, Table.get_set, h]
  · rfl

/-! ### Time (R74) -/

/-- Time moves no holder, no waiter and no barred alliance. -/
theorem elapse_claim (k : Nat) (s : State) (q : Position) :
    ∃ hold bar, (elapse k s).claim q = { s.claim q with hold, bar }
      ∧ hold.map Hold.holder = (s.claim q).hold.map Hold.holder
      ∧ bar.map Bar.alliance = (s.claim q).bar.map Bar.alliance := by
  simp only [elapse]
  split
  · refine ⟨_, _, by simp only [State.claim, matchTime, realTime, Table.get_map]; rfl, ?_, ?_⟩
    · simp only [Option.map_map]; rfl
    · simp only [Option.map_map]; rfl
  · exact ⟨(s.claim q).hold, (s.claim q).bar, rfl, rfl, rfl⟩

theorem elapse_heldBy (k : Nat) (s : State) (q : Position) (n : StationId) :
    ((elapse k s).claim q).heldBy n = (s.claim q).heldBy n := by
  obtain ⟨hold, bar, e, h, -⟩ := elapse_claim k s q
  rw [e]
  simp only [ClaimEntry.heldBy]
  revert h
  cases hold <;> cases (s.claim q).hold <;> simp +contextual

theorem elapse_waiters (k : Nat) (s : State) (q : Position) : ((elapse k s).claim q).waiters = (s.claim q).waiters := by
  obtain ⟨hold, bar, e, -⟩ := elapse_claim k s q
  rw [e]

end Sys2Proof.Machine
end

