-- ==== Sys2Proof/Laws/Operands.lean ====
section
/-! SUPPORT. What the operand readers answer, case by case. -/

namespace Sys2Proof

theorem ofNum_of {n k : Nat} (i : Fin n) (h : k = i.val + 1) : ofNum n k = some i := by
  subst h; simp only [ofNum]; rw [dif_pos ⟨by omega, by omega⟩]; simp

theorem ofNum_bad {n k : Nat} (h : k < 1 ∨ n < k) : ofNum n k = none := dif_neg (by omega)

theorem ofNum_val {n k : Nat} {i : Fin n} (h : ofNum n k = some i) : k = i.val + 1 := by
  simp only [ofNum] at h; split at h
  · next c => simp only [Option.some.injEq] at h; subst h; simp only []; omega
  · cases h

@[simp] theorem ofNum_num {n : Nat} (i : Fin n) : ofNum n (num i) = some i := ofNum_of i rfl

theorem ofIndex_of {n k : Nat} (i : Fin n) (h : k = i.val) : ofIndex n k = some i := by
  subst h; simp [ofIndex]

theorem ofIndex_bad {n k : Nat} (h : n ≤ k) : ofIndex n k = none := dif_neg (by omega)

theorem ofIndex_val {n k : Nat} {i : Fin n} (h : ofIndex n k = some i) : k = i.val := by
  simp only [ofIndex] at h; split at h
  · simp only [Option.some.injEq] at h; subst h; rfl
  · cases h

namespace Machine

theorem flagOf_bad {k : Nat} (h : 2 ≤ k) : flagOf k = none := by
  match k, h with
  | k + 2, _ => rfl

@[simp] theorem stationOf_stationField (n : StationId) : stationOf (stationField n) = some n := by
  have : (stationField n).toNat = num n := by
    simp only [stationField, BitVec.toNat_ofNat, num]; omega
  rw [stationOf, this, ofNum_num]

end Machine
end Sys2Proof
end

