-- ==== Sys2Proof/Laws/Passage.lean ====
section
/-! SUPPORT. The passage of a station frame: what the stages before the rules do to the state, and what a frame that
comes to the rules, or past them to its handler, does. -/

namespace Sys2Proof.Machine

/-! ### The state in which a frame comes to the rules -/

variable {s u : State} {k : RadioPort} {n : StationId} {f : Frame} {steer : Option AreaId}

theorem roam_station (k : RadioPort) (n m : StationId) (s : State) :
    (roam k n s).station m = { s.station m with
      recordedPort := if m = n ∧ (s.station n).state = .linked then some k else (s.station m).recordedPort } := by
  simp only [roam, Station.isLinked, decide_eq_true_eq]
  split
  · next h =>
    rw [State.station_setStation]
    split
    · next e => subst e; simp [h]
    · next e => simp [e]
  · next h => simp [h]

theorem heard_station (s : State) (k : RadioPort) (n m : StationId) :
    (s.heard k n).station m = { s.station m with
      quiet := if m = n then some s.stations.staleLimit else (s.station m).quiet
      recordedPort := if m = n ∧ (s.station n).state = .linked then some k else (s.station m).recordedPort } := by
  have h : ∀ j, (receiveIdle (.rl k) s).station j = s.station j := fun j => station_congr (by simp) j
  have l : (receiveIdle (.rl k) s).stations = s.stations := by simp
  simp only [State.heard, roam_station, restartQuiet, State.station_setStation, h, l, if_true]
  by_cases e : m = n
  · subst e; simp
  · simp [e]

@[simp] theorem heard_classifier : (s.heard k n).classifier = s.classifier := by simp [State.heard]
@[simp] theorem heard_map : (s.heard k n).map = s.map := by simp [State.heard]
@[simp] theorem heard_claims : (s.heard k n).claims = s.claims := by simp [State.heard]
@[simp] theorem heard_credit : (s.heard k n).credit = s.credit := by simp [State.heard]
@[simp] theorem heard_areas : (s.heard k n).areas = s.areas := by simp [State.heard]
@[simp] theorem heard_chain : (s.heard k n).chain = s.chain := by simp [State.heard]
@[simp] theorem heard_control : (s.heard k n).control = s.control := by simp [State.heard]
@[simp] theorem heard_tally : (s.heard k n).tally = s.tally := by simp [State.heard]

/-- What the rules read of a station is not changed by hearing from it. -/
theorem heard_searchRules : (s.heard k n).searchRules k n f = s.searchRules k n f := by
  simp only [State.searchRules, Rule.admits, State.rule, heard_station, heard_classifier, heard_control]
  rfl

/-- A frame that comes to the rules is judged by them, in the state in which its station has been heard. -/
theorem arrival_of_comesToRules (h : ComesToRules k n f s) :
    arrival (.rl k) f s = .next (applyRules k n f (s.heard k n)) := by
  have hs : ∀ m, (receiveIdle (.rl k) s).station m = s.station m := fun m => station_congr (by simp) m
  have hl : ¬(f.kind ≠ .join ∧ f.kind ≠ .beacon ∧ (!(s.station n).isLinked) = true) := by
    rintro ⟨a, b, c⟩
    rcases h.linked with e | e | e
    · exact a e
    · exact b e
    · simp [Station.isLinked, e] at c
  have hp : phaseAdmits f.kind (roam k n (restartQuiet n (receiveIdle (.rl k) s))).control.phase = true := by
    simpa using h.phase
  simp only [arrival, h.accepted, h.gate, Bool.and_self, if_true, stationFrame, h.source, hs, h.enrolled, if_false,
    h.kind, Bool.not_true, Bool.false_eq_true, hl, passPhaseGate, hp]
  rfl

/-- A frame that comes to its handler is handled, with its steer area and in its state. -/
theorem arrival_of_comesToHandler (h : ComesToHandler k n f s steer u) :
    arrival (.rl k) f s = .next (handleFrame k n f steer u) := by
  cases h with
  | byDefault h none_ pass =>
    rw [arrival_of_comesToRules h]; simp [applyRules, heard_searchRules, none_, pass]
  | byPass h i first verdict =>
    rw [arrival_of_comesToRules h]
    simp [applyRules, heard_searchRules, first, applyVerdict, State.rule, show (s.classifier.rules.get i).verdict = .pass from verdict]
  | byCopy h i first verdict =>
    rw [arrival_of_comesToRules h]
    simp [applyRules, heard_searchRules, first, applyVerdict, State.rule, show (s.classifier.rules.get i).verdict = .copy from verdict]
  | bySteer h i first verdict =>
    rw [arrival_of_comesToRules h]
    simp [applyRules, heard_searchRules, first, applyVerdict, State.rule, show (s.classifier.rules.get i).verdict = .steer from verdict]

/-! ### The state in which a frame comes to its handler -/

theorem ComesToHandler.rules (h : ComesToHandler k n f s steer u) : ComesToRules k n f s := by cases h <;> assumption

/-- Before its handler a frame has changed its port, its station's record, a hit count and, by a COPY, ML's areas. -/
theorem ComesToHandler.keeps (h : ComesToHandler k n f s steer u) :
    u.map = s.map ∧ u.claims = s.claims ∧ u.credit = s.credit ∧ u.chain = s.chain ∧ u.control = s.control
      ∧ u.tally = s.tally ∧ u.stations = (s.heard k n).stations := by
  cases h <;> simp

theorem ComesToHandler.station (h : ComesToHandler k n f s steer u) (m : StationId) :
    u.station m = { s.station m with
      quiet := if m = n then some s.stations.staleLimit else (s.station m).quiet
      recordedPort := if m = n ∧ (s.station n).state = .linked then some k else (s.station m).recordedPort } := by
  rw [station_congr h.keeps.2.2.2.2.2.2, heard_station]

end Sys2Proof.Machine
end

