-- ==== Sys2Proof/Laws/Time.lean ====
section
/-! SUPPORT. The passage of time: what the ticks that fall within it do to the credit accounts and to the accumulator. -/

namespace Sys2Proof.Machine

/-! ### Credit ticks -/

@[simp] theorem Credit.ticks_zero (c : Credit) : c.ticks 0 = c := rfl

@[simp] theorem Credit.ticks_cap (k : Nat) (c : Credit) : (c.ticks k).cap = c.cap := by simp [Credit.cap]

theorem Credit.get_ticks (k : Nat) (c : Credit) (n : StationId) :
    (c.ticks k).balances.get n = if k = 0 then c.balances.get n else min c.cap (c.balances.get n + k * c.rate) := by
  unfold Credit.ticks
  split <;> simp

/-- The refills of k + 1 ticks are the refills of k ticks and then one more (R102). -/
theorem Credit.ticks_succ (k : Nat) (c : Credit) : c.ticks (k + 1) = (c.ticks k).tick := by
  rcases Nat.eq_zero_or_pos k with rfl | h
  · simp [Credit.ticks, Credit.tick]
  · have h' : k ≠ 0 := by omega
    have step : ∀ b : Nat, min c.cap (b + (k + 1) * c.rate) = min c.cap (min c.cap (b + k * c.rate) + c.rate) := by
      intro b
      rw [Nat.add_mul]
      omega
    simp [Credit.ticks, Credit.tick, Credit.cap, h', Table.map, Function.comp_def]
    intro b _
    simpa [Credit.cap] using step b

/-- Ticks leave no balance above the cap that was not above it. -/
theorem Credit.ticks_le {k : Nat} {c : Credit} (n : StationId) (h : c.balances.get n ≤ c.cap) :
    (c.ticks k).balances.get n ≤ c.cap := by
  rw [Credit.get_ticks]
  split
  · exact h
  · exact Nat.min_le_left _ _

/-! ### The accumulator -/

@[simp] theorem PhaseControl.ticksWithin_zero (c : PhaseControl) : c.ticksWithin 0 = 0 := by
  simp only [PhaseControl.ticksWithin, Config.tickLength]
  omega

theorem elapse_of_running {s : State} (n : Nat) (h : s.control.phase.isRunning = true) :
    elapse n s = matchTime n (realTime n s) := by simp [elapse, h]

theorem elapse_of_still {s : State} (n : Nat) (h : s.control.phase.isRunning = false) : elapse n s = realTime n s := by
  simp [elapse, h]

theorem elapse_credit_of_running {s : State} (n : Nat) (h : s.control.phase.isRunning = true) :
    (elapse n s).credit = s.credit.ticks (s.control.ticksWithin n) := by rw [elapse_of_running n h]; rfl

theorem elapse_credit_of_still {s : State} (n : Nat) (h : s.control.phase.isRunning = false) :
    (elapse n s).credit = s.credit := by rw [elapse_of_still n h]; rfl

/-- No ms of match time is lost: what the accumulator held and the n ms that pass are the ticks that fell, at 10 ms each,
and what it holds then. -/
theorem elapse_accumulator {s : State} (n : Nat) (h : s.control.phase.isRunning = true) (le : s.control.accumulator ≤ 10) :
    s.control.accumulator + n = 10 * s.control.ticksWithin n + (elapse n s).control.accumulator
      ∧ (elapse n s).control.accumulator ≤ 10 := by
  rw [elapse_of_running n h]
  simp only [matchTime, realTime, PhaseControl.ticksWithin, Config.tickLength]
  omega

theorem elapse_accumulator_le {s : State} (n : Nat) (le : s.control.accumulator ≤ 10) :
    (elapse n s).control.accumulator ≤ 10 := by
  cases h : s.control.phase.isRunning
  · rw [elapse_of_still n h]; exact le
  · exact (elapse_accumulator n h le).2

/-- Time keeps every balance within the cap (R101). -/
theorem elapse_creditFits {s : State} (n : Nat) (h : s.creditFits) : (elapse n s).creditFits := by
  intro m
  have cap : (elapse n s).credit.burst = s.credit.burst := elapse_credit_burst s n
  rw [cap]
  cases running : s.control.phase.isRunning
  · rw [State.balance, elapse_credit_of_still n running]; exact h m
  · rw [State.balance, elapse_credit_of_running n running]; exact Credit.ticks_le m (h m)

end Sys2Proof.Machine
end

