-- ==== Sys2Proof/Tests/Slice0.lean ====
section
/-! SUPPORT. The model's own tests: an ill-formed command for each check of well-formedness, bytes written out from the
manual's layouts, and, for each statement with hypotheses, small states and operands that meet them, each clause at the
ends of its range. Every theorem is about one command on one small state. -/

namespace Sys2Proof.Tests

set_option Elab.async false

open Sys2Proof Sys2Proof.Machine

/-! ### Small states -/

/-- A station record that is linked on a port. -/
def onPort (kind : StationKind) (alliance : Alliance) (team : Nat) (partner : Option StationId) (k : RadioPort) : Station :=
  { state := .linked, kind := some kind, alliance, team, partner, recordedPort := some k, quiet := some 500, held := false }

/-- An empty area of ten slots, joined. -/
def areaFor (number : Nat) (consumer : Consumer) (lane : Lane) : Area :=
  { Area.disabled with start := number * 10, stop := number * 10 + 10, join := some { consumer, lane } }

def readyNode (kind : NodeKind) : Node := { state := .ready, kind := some kind, servingEnd := .ca, misses := 0 }

/-- A field in a phase. Station 1 is a robot of alliance 0 with driver station 2, both linked on RL0; station 3 is a robot
of alliance 1 linked on RL1; station 4 is an enrolled robot of alliance 1. Positions 1 to 4 are alliance 0's home, 5 to 8
are shared, 9 to 12 are alliance 1's home; 7 is the partner of 6. Nodes 1 to 12 are READY, node 5 is a goal. -/
def field (phase : Phase) : State :=
  { State.reset with
    stations := { State.reset.stations with
      records := (((State.reset.stations.records.set 0 (onPort .robot 0 11 (some 1) 0)).set 1
        (onPort .driver 0 11 (some 0) 0)).set 2 (onPort .robot 1 22 none 1)).set 3
        { onPort .robot 1 33 none 1 with state := .enrolled, recordedPort := none, quiet := none } }
    map := { State.reset.map with
      homes := (State.reset.map.homes.set 0 ⟨1, 4⟩).set 1 ⟨9, 12⟩
      shared := ⟨5, 8⟩
      partners := State.reset.map.partners.set 6 true }
    areas := ((((((State.reset.areas.set 0 Area.zero).set 1 (areaFor 2 (.port .ml) .bulk)).set 2
      (areaFor 3 (.port (.rl 0)) .urgent)).set 3 (areaFor 4 (.port (.rl 0)) .normal)).set 4
      (areaFor 5 (.port (.rl 0)) .bulk)).set 5 (areaFor 6 (.port (.rl 1)) .urgent)).set 6 (areaFor 7 .chain .normal)
    chain := { State.reset.chain with
      nodes := ⟨List.replicate 4 (readyNode .gate) ++ readyNode .goal :: List.replicate 7 (readyNode .gate)
        ++ List.replicate 20 Node.powerOn, rfl⟩
      halted := phase.isPaused }
    control := { State.reset.control with phase, timer := if phase.isIdle then 0 else 20000, silence := some 1000 } }

def setup : State := field .setup
def staged : State := field .staged
def auto : State := field (.running .auto)
def driver : State := field (.running .driver)
def endgame : State := field (.running .endgame)
def paused : State := field (.paused .driver .request)
def ended : State := field (.ended .endgame)

/-- A census with its probe at a position in flight. -/
def surveying (pass : ChainEnd) (position : Position) (s : State) : State :=
  s.setCensus (some { requestTag := 7, pass, position, timer := 20 })

/-- Every tag of the chain is in use, for direct commands to position 1. -/
def tagsFull (s : State) : State :=
  { s with chain := { s.chain with tags := .fill 8 (some { origin := .direct 5, position := 0, sentOn := .ca, timer := 9 }) } }

/-! ### Small commands, and what is seen of them -/

def req (args : List Byte) : Request := { sequence := 9, tag := 7, args }

def body (source : BitVec 6) (payload : List Byte) : FrameBody := { source, destination := 0, sequence := 4, label := 0, payload }

/-- The command answers a next state with a property. -/
def runs (c : Instr) (s : State) (p : State → Bool) : Bool :=
  match exec c s with
  | .next t => p t
  | .fault _ | .refused _ => false

/-- The payload of the frame at the tail of an area. -/
def tail (a : AreaId) (t : State) : List Byte := (t.area a).frames.getLast?.elim [] (·.payload)

/-- The command's reply, at the tail of area 0: its result and data. -/
def replies (c : Instr) (s : State) (result : Byte) (data : List Byte := []) : Bool :=
  runs c s fun t => decide ((tail 0 t).drop 1 = [7, result] ++ data)

/-- The command's answer to a station of RL0, at the tail of area 2: its code, position and extra. -/
def answers (c : Instr) (s : State) (code position : Byte) (extra : Nat := 0) : Bool :=
  runs c s fun t => decide ((tail 2 t).headD 0xFF = code ∧ (tail 2 t).getD 3 0 = position ∧ (tail 2 t).drop 6 = be16 extra)

/-- The command leaves the whole state as it was. -/
def keeps (c : Instr) (s : State) : Bool := runs c s fun t => decide (t = s)

/-! ### Well-formedness refuses an ill-formed term for each check -/

def long (k : Nat) : List Byte := List.replicate k 0

/-- An accepted frame, a frame that is one byte too long, a source that is no number. -/
theorem test_wellFormed_frames :
    (Instr.frameDiscard .ml [1, 2, 3]).wellFormed = true
    ∧ (Instr.frameDiscard .ml [0x21, 3, 63, 1, 0, 0, 0x5F, 0x5D]).wellFormed = false
    ∧ (Instr.portGateDrop .ml { body 1 [] with kind := .join }).wellFormed = true
    ∧ (Instr.portGateDrop .ml { body 1 (long 49) with kind := .join }).wellFormed = false
    ∧ (Instr.portGateDrop (.rl 3) { body 1 [] with kind := .join }).wellFormed = false := by decide +kernel

theorem test_wellFormed_station_frames :
    (∀ c ∈ [Instr.join, .beacon, .pilot, .telem, .element, .claim, .release],
      (c (.rl 0) (body 32 (long 48))).wellFormed = true ∧ (c .ml (body 1 [])).wellFormed = false
      ∧ (c (.rl 0) (body 33 [])).wellFormed = false ∧ (c (.rl 0) (body 62 [])).wellFormed = false
      ∧ (c (.rl 0) (body 63 [])).wellFormed = true ∧ (c (.rl 0) (body 1 (long 49))).wellFormed = false)
    ∧ (Instr.join (.rl 0) { body 1 [] with destination := 40 }).wellFormed = false := by decide +kernel

theorem test_wellFormed_requests :
    (Instr.mgmtShort 9 [1]).wellFormed = true ∧ (Instr.mgmtShort 9 [1, 7]).wellFormed = false
    ∧ (Instr.unknownRequest 0 (req [])).wellFormed = true ∧ (Instr.unknownRequest 1 (req [])).wellFormed = false
    ∧ (Instr.unknownRequest 0x75 (req (long 47))).wellFormed = false
    ∧ (Instr.partner (req [2, 1])).wellFormed = true ∧ (Instr.partner (req [2, 0])).wellFormed = false
    ∧ (Instr.partnerRemove (req [2, 0])).wellFormed = true ∧ (Instr.partnerRemove (req [2, 1])).wellFormed = false
    ∧ (Instr.partnerRemove (req (2 :: long 46))).wellFormed = false
    ∧ (Instr.readStatus (req (long 46))).wellFormed = true ∧ (Instr.readStatus (req (long 47))).wellFormed = false
    := by decide +kernel

theorem test_wellFormed_messages :
    (Instr.reply .ca 1 0 2 0).wellFormed = true ∧ (Instr.reply .ca 0 0 0 0).wellFormed = false
    ∧ (Instr.reply .ca 1 0 3 0).wellFormed = false ∧ (Instr.probeReply .cb 32 6).wellFormed = true
    ∧ (Instr.probeReply .cb 33 6).wellFormed = false ∧ (Instr.probeReply .cb 32 7).wellFormed = false
    ∧ (Instr.sense .ca 1 0x8F).wellFormed = true ∧ (Instr.sense .ca 1 0x80).wellFormed = false
    ∧ (Instr.sense .ca 0 0x81).wellFormed = false ∧ (Instr.chainMessageDiscard .ca [1]).wellFormed = true
    ∧ (Instr.chainMessageDiscard .ca [3, 1, 0, 1, 0, 0, 0, 0xFB]).wellFormed = false
    ∧ Instr.dequeue.wellFormed = true := by decide +kernel

/-! ### Bytes written out from the manual's layouts -/

/-- The checked examples of 01_frames_and_chain_messages.md: the CRC and the COMMAND message. -/
theorem test_examples_of_the_manual :
    crc [0x31, 0x32, 0x33, 0x34, 0x35, 0x36, 0x37, 0x38, 0x39] = 0x29B1
    ∧ ({ type := .command, position := 7, tag := 3, code := 0x12, value := 500 } : ChainMessage).wire
      = [0x01, 0x07, 0x03, 0x12, 0x01, 0xF4, 0x00, 0xEE] := by decide +kernel

/-- Header: kind and version, source, destination, sequence, payload length, label; then the payload and the CRC. -/
theorem test_deliveries_spell_their_commands :
    deliveryCommand (.rl 1) [0x61, 1, 0, 5, 3, 0, 5, 0x03, 0xE8, 0x23, 0xF1]
      = .claim (.rl 1) { source := 1, destination := 0, sequence := 5, label := 0, payload := [5, 0x03, 0xE8] }
    ∧ deliveryCommand (.rl 0) [0x11, 1, 0, 2, 3, 0x55, 0, 11, 1, 0x87, 0x4B]
      = .join (.rl 0) { source := 1, destination := 0, sequence := 2, label := 0x55, payload := [0, 11, 1] }
    ∧ deliveryCommand (.rl 3) [0x21, 3, 63, 1, 0, 0, 0x5F, 0x5D]
      = .beacon (.rl 3) { source := 3, destination := 63, sequence := 1, label := 0, payload := [] }
    ∧ deliveryCommand (.rl 0) [0x31, 2, 1, 4, 2, 0, 1, 2, 0x62, 0x6F]
      = .pilot (.rl 0) { source := 2, destination := 1, sequence := 4, label := 0, payload := [1, 2] }
    ∧ deliveryCommand (.rl 0) [0x41, 1, 2, 4, 0, 0, 0xBA, 0x59]
      = .telem (.rl 0) { source := 1, destination := 2, sequence := 4, label := 0, payload := [] }
    ∧ deliveryCommand (.rl 0) [0x51, 1, 0, 4, 4, 0, 5, 0x80, 0, 1, 0xD3, 0x8A] = .element (.rl 0) (body 1 [5, 0x80, 0, 1])
    ∧ deliveryCommand (.rl 0) [0x71, 1, 0, 4, 1, 0, 5, 0x25, 0x0A] = .release (.rl 0) (body 1 [5]) := by decide +kernel

theorem test_deliveries_on_ml_and_discards :
    deliveryCommand .ml [0xA1, 0, 0, 9, 4, 0, 0x3C, 7, 4, 4, 0x14, 0x23] = .creditParams (req [4, 4])
    ∧ deliveryCommand .ml [0xA1, 0, 0, 9, 1, 0, 1, 0x58, 0xC6] = .mgmtShort 9 [1]
    ∧ deliveryCommand .ml [0xA1, 0, 0, 9, 2, 0, 0, 7, 0xC5, 0xF7] = .unknownRequest 0 (req [])
    ∧ deliveryCommand (.rl 0) [0xA1, 0, 0, 9, 1, 0, 1, 0x58, 0xC6] = .portGateDrop (.rl 0) (mgmtFrame 9 [1])
    ∧ deliveryCommand .ml [0xA1, 0, 0, 9, 1, 0, 1, 0x58, 0xC7]
      = .frameDiscard .ml [0xA1, 0, 0, 9, 1, 0, 1, 0x58, 0xC7] := by decide +kernel

theorem test_messages_spell_their_commands :
    chainCommand .ca [0x02, 7, 3, 0, 0x01, 0xF4, 0, 0xFF] = .reply .ca 7 3 0 500
    ∧ chainCommand .cb [0x03, 5, 0, 0x91, 0, 0, 0, 0x67] = .sense .cb 5 0x91
    ∧ chainCommand .ca [0x05, 32, 0, 6, 0, 0, 0, 0xD5] = .probeReply .ca 32 6
    ∧ chainCommand .ca [0x02, 33, 3, 0, 0, 0, 0, 0xDA] = .chainMessageDiscard .ca [0x02, 33, 3, 0, 0, 0, 0, 0xDA]
    := by decide +kernel

/-- What the part sends after power-on: the START notice, as ML carries it. -/
theorem test_start_notice_on_the_line :
    startAfterPowerOn.content = [0xB1, 0, 0, 0, 4, 0, 0x80, 0, 0, 1] := by decide +kernel

/-! ### States and operands that meet the hypotheses of the statements

Each theorem is named after its statement. A clause's hypotheses stand before what the command then does; where
several clauses stop a request, the operands are at the ends of the ranges. -/

/-- Every balance is empty. -/
def drained (s : State) : State := { s with credit := { s.credit with balances := .fill 32 0 } }

/-- A full area. -/
def fullArea (a : AreaId) (notified : Bool) (s : State) : State :=
  s.setArea a { s.area a with frames := List.replicate (s.area a).capacity startAfterPowerOn, notified }

/-- Without the areas of ML. -/
def noReports (s : State) : State := (s.setArea 0 Area.disabled).setArea 1 Area.disabled

theorem test_meets_EmptyQueueTakesAStepOfItsOwn :
    State.reset.pending = [] ∧ State.reset.due = none
    ∧ (State.reset.setPort .ml { PortState.powerOn with line := .up }).due = some (.transmitterTake .ml)
    ∧ (driver.setClaim 4 { ClaimEntry.free with hold := some ⟨0, 0⟩ }).due = some (.holdExpiry 4)
    ∧ (driver.setClaim 4 { ClaimEntry.free with bar := some ⟨0, 0⟩ }).due = some (.barExpiry 4)
    ∧ (driver.setSlot (some ⟨6, 0, 1, 2⟩)).due = some .pendingSend
    ∧ (driver.setArea 6 { driver.area 6 with frames := [startAfterPowerOn] }).due = some .dequeue
    ∧ { driver with control := { driver.control with accumulator := 10 } }.due = some .creditTick
    ∧ (driver.setStation 0 { driver.station 0 with quiet := some 0 }).due = some (.quietExpiry 0)
    ∧ { setup with control := { setup.control with silence := some 0 } }.due = some .silenceExpiry
    ∧ (driver.setTag 3 (some ⟨.direct 5, 0, .ca, 0⟩)).due = some (.replyTimeout 3)
    ∧ (setup.setCensus (some ⟨7, .ca, 0, 0⟩)).due = some .probeTimeout
    ∧ (paused.setSettle 7 (some 0)).due = some (.settleExpiry 7)
    ∧ { ended with tally := { ended.tally with final := .running 0 } }.due = some .finalSettleExpiry
    ∧ { auto with control := { auto.control with timer := 0 } }.due = some .phaseExpiry := by decide +kernel

theorem test_meets_TimersCountRealOrMatchTime :
    driver.control.phase.isRunning = true ∧ paused.control.phase.isRunning = false
    ∧ (elapse 9 driver).control.timer = 19991 ∧ (elapse 9 paused).control.timer = 20000
    ∧ ((elapse 9 driver).station 0).quiet = some 491 ∧ ((elapse 9 paused).station 0).quiet = some 491
    ∧ (elapse 9 { ended with tally := { ended.tally with final := .running 9 } }).tally.final = .running 0
    ∧ (∀ x ∈ [FinalSettle.idle, .done], (elapse 9 { ended with tally := { ended.tally with final := x } }).tally.final = x)
    ∧ driver.control.accumulator ≤ 10
    ∧ (∀ x ∈ [(0, 0, 0), (1, 1, 0), (10, 10, 0), (11, 1, 4), (20, 10, 4), (25, 5, 8), (20000, 10, 64)],
        let t := elapse x.1 (drained driver)
        t.control.accumulator = x.2.1 ∧ t.balance 0 = x.2.2 ∧ t.balance 31 = x.2.2)
    ∧ (elapse 25 (drained paused)).balance 0 = 0 ∧ (elapse 25 (drained paused)).control.accumulator = 0 := by decide +kernel

/-- The credit ticks that fall within the time one command lets pass refill the balances; the next waits at 10 ms. -/
theorem test_ticks_fall_within_a_command :
    (let s := driver.setTag 3 (some ⟨.direct 5, 0, .ca, 20⟩)
     runs (.replyTimeout 3) (drained s) (fun t => decide (t.balance 0 = 4 ∧ t.control.accumulator = 10)) = true)
    ∧ runs .phaseExpiry (drained { driver with control := { driver.control with timer := 95, accumulator := 7 } })
        (fun t => decide (t.balance 0 = 40 ∧ t.control.accumulator = 2 ∧ t.control.phase = .running .endgame)) = true
    ∧ runs (.quietExpiry 0) (drained driver) (fun t => decide (t.balance 0 = 64 ∧ t.control.accumulator = 10)) = true
    ∧ runs .creditTick (elapse 20 (drained driver)) (fun t => decide (t.balance 0 = 8 ∧ t.control.accumulator = 0)) = true
    := by decide +kernel

theorem test_meets_ResetsRestoreThePowerOnValues :
    runs .powerOn driver (fun t => decide (tail 0 t = [0x80, 0, 0, 1] ∧ t.control = PhaseControl.powerOn)) = true
    ∧ (req (long 46)).args.length ≤ 46
    ∧ (∀ args ∈ [[], long 46], runs (.fullReset (req args)) driver (fun t => decide (tail 0 t = [0x80, 0, 0, 2]
        ∧ t.stations = StationTable.powerOn)) = true) := by decide +kernel

theorem test_meets_FieldResetPreparesTheNextMatch :
    driver.control.phase.isBetween = false ∧ replies (.fieldReset (req [])) driver 0x11 = true
    ∧ (surveying .ca 0 setup).control.phase.isBetween = true ∧ (surveying .ca 0 setup).chain.census ≠ none
    ∧ replies (.fieldReset (req [])) (surveying .ca 0 setup) 0x13 = true
    ∧ ended.control.phase.isBetween = true ∧ ended.chain.census = none ∧ (ended.station 0).state ≠ .vacant
    ∧ (ended.station 4).state = .vacant ∧ (ended.area 6).servesConsumer .chain = true
    ∧ (ended.area 0).servesConsumer (.port .ml) = true ∧ (ended.area 2).servesConsumer (.port .ml) = false
    ∧ replies (.fieldReset (req (long 46))) ended 0 = true ∧ replies (.fieldReset (req [])) setup 0 = true
    ∧ runs (.fieldReset (req [])) ended (fun t => decide ((t.area 0).frames.length = 5
        ∧ tail 2 t = [1, 0, 0, 0, 0, 0, 0] ∧ (t.station 0).state = .enrolled)) = true := by decide +kernel

/-- The room ML's area needs is met exactly, in SETUP and in ENDED: three records change state. -/
theorem test_meets_FieldReset_with_room :
    let exact := fun (stop : Nat) (s : State) => s.setArea 0 { s.area 0 with stop }
    let changed := fun s : State => (List.finRange 32).filter fun n =>
      decide ((s.station n).state ≠ .vacant ∧ (s.station n).state ≠ .enrolled)
    (∀ s ∈ [exact 4 setup, exact 5 ended], s.chooseArea (.port .ml) .normal none = some 0 ∧ (changed s).length = 3
      ∧ (s.area 0).frames = [] ∧ (∀ q, (s.claim q).hold = none)
      ∧ ∀ b, (s.area b).join ≠ none → (s.area b).start < (s.area b).stop)
    ∧ runs (.fieldReset (req [])) (exact 4 setup) (fun t => decide ((t.area 0).frames.map (·.payload) =
        [[0x82, 0, 0, 1, 2, 1], [0x82, 0, 0, 2, 2, 1], [0x82, 0, 0, 3, 2, 1], [4, 7, 0]] ∧ (t.area 0).drops = 0)) = true
    ∧ runs (.fieldReset (req [])) (exact 5 ended) (fun t => decide ((t.area 0).frames.map (·.payload) =
        [[0x82, 0, 0, 1, 2, 1], [0x82, 0, 0, 2, 2, 1], [0x82, 0, 0, 3, 2, 1], [0x81, 0, 0, 0, 255, 0, 0, 0, 0, 0], [4, 7, 0]]
        ∧ (t.port (.rl 3)).discards = 1 ∧ (t.port (.rl 0)).discards = 0 ∧ (t.area 2).peak = 1)) = true
    ∧ ended.chooseArea (.port (.rl 3)) .urgent none = none ∧ ended.chooseArea (.port (.rl 0)) .urgent none = some 2
    ∧ (ended.area 1).servesConsumer (.port .ml) = true ∧ (setup.station 3).state = .enrolled := by decide +kernel

theorem test_meets_ShortAndUnknownRequestsHaveNoEffect :
    (([] : List Byte).length < 2 ∧ ([0x01] : List Byte).length < 2)
    ∧ runs (.mgmtShort 9 [1]) driver (fun t => decide ((t.area 0).frames = [] ∧ t.control.silence = some 1000)) = true
    ∧ (Instr.linkReset (req [])).request? = some (0x05, req []) ∧ argumentLength 0x05 = some 1
    ∧ replies (.linkReset (req [])) driver 0x10 = true ∧ argumentLength 0x60 = some 12
    ∧ replies (.phaseTimes (req (long 11))) setup 0x10 = true
    ∧ (∀ code ∈ [(0 : Byte), 0x06, 0x75, 0xFF], argumentLength code.toNat = none
        ∧ runs (.unknownRequest code (req (long 46))) driver (fun t => decide (tail 0 t = [code, 7, 0x15])) = true)
    := by decide +kernel

theorem test_meets_EveryRequestIsAnsweredOnce :
    (Instr.stage (req (long 46))).request? = some (0x61, req (long 46)) ∧ (req (long 46)).args.length ≤ 46
    ∧ replies (.stage (req (long 46))) driver 0x11 = true ∧ replies (.keepalive (req [])) driver 0 = true
    ∧ replies (.census (req [])) setup 1 = true := by decide +kernel

theorem test_meets_OfferedFramesAreStoredOrDropped :
    let f := startAfterPowerOn
    setup.chooseArea (.port .ml) .urgent none = some 0
    ∧ ((offerReport .urgent f setup).area 0).frames = [f] ∧ ((offerReport .urgent f setup).area 0).peak = 1
    ∧ (noReports setup).chooseArea (.port .ml) .normal none = none ∧ (offerReport .normal f (noReports setup)).reportsLost = true
    ∧ ((fullArea 0 true setup).area 0).stop - ((fullArea 0 true setup).area 0).start ≤ ((fullArea 0 true setup).area 0).frames.length
    ∧ ((offerReport .normal f (fullArea 0 true setup)).area 0).drops = 1
    ∧ ((offerReport .normal f (fullArea 0 false setup)).area 0).drops = 2
    ∧ (fullArea 1 false setup).chooseArea (.port .ml) .bulk none = some 1
    ∧ tail 0 (offerReport .bulk f (fullArea 1 false setup)) = [0x88, 0, 0, 1, 0, 1]
    ∧ (∀ x ∈ [(false, 2), (true, 1)], let t := offerReport .bulk f (fullArea 0 x.1 (fullArea 1 false setup))
        (t.area 1).drops = 1 ∧ (t.area 1).notified = true ∧ (t.area 0).drops = x.2 ∧ (t.area 0).notified = true
          ∧ t.reportsLost = true)
    ∧ setup.chooseArea (.port (.rl 0)) .urgent none = some 2 ∧ ((offerRadio 0 .urgent none f setup).area 2).frames = [f]
    ∧ setup.chooseArea (.port (.rl 3)) .urgent none = none ∧ ((offerRadio 3 .urgent none f setup).port (.rl 3)).discards = 1
    ∧ tail 0 (offerRadio 0 .urgent none f (fullArea 2 false setup)) = [0x88, 0, 0, 2, 0, 1]
    ∧ (setup.station 0).recordedPort = some 0 ∧ (setup.station 3).recordedPort = none
    ∧ tail 2 (arenaTo .hold 0 driver) = [2, 4, 0, 0, 0x4E, 0x20, 1] := by decide +kernel

theorem test_meets_areas_fit : setup.QueuesFit := by constructor <;> decide +kernel

theorem test_meets_AreaIsChosenByJoinAndLane :
    let rl0 := Consumer.port (.rl 0)
    ((setup.area 4).start < (setup.area 4).stop ∧ (setup.area 4).servesConsumer rl0 = true
      ∧ setup.chooseArea rl0 .urgent (some 4) = some 4)
    ∧ ((setup.area 5).servesConsumer rl0 = false ∧ setup.joinedArea rl0 .bulk = some 4
        ∧ setup.chooseArea rl0 .bulk (some 5) = some 4 ∧ setup.chooseArea rl0 .bulk none = some 4)
    ∧ ((setup.area 4).join = some ⟨rl0, .bulk⟩ ∧ ∀ a, (setup.area a).join ≠ some ⟨.port (.rl 1), .bulk⟩)
    ∧ (setup.joinedArea (.port (.rl 1)) .bulk = none ∧ setup.chooseArea (.port (.rl 1)) .bulk none = some 5) := by decide +kernel

theorem test_meets_ReadStatusReadsAndClearsTheFlag :
    (req (long 46)).args.length ≤ 46
    ∧ runs (.readStatus (req (long 46))) { paused with reportsLost := true } (fun t => decide (t.reportsLost = false
        ∧ (tail 0 t).drop 3 = [6, 4, 0, 0, 0x4E, 0x20, 1, 1] ++ long 10 ++ [28, 1, 3, 0, 0, 0] ++ [20, 0, 12, 0] ++ [1]
          ++ [3, 0xE8, 3, 0xE8] ++ [0x3A, 0x98, 0x0B, 0xB8, 0, 1, 0xD4, 0xC0, 0, 0, 0x75, 0x30])) = true
    ∧ runs (.readStatus (req [])) ended (fun t => decide ((tail 0 t).drop 3 = [7, 5] ++ (tail 0 t).drop 5)) = true
    := by decide +kernel

theorem test_meets_KeepaliveAndReadsChangeNothing :
    (∀ c ∈ [Instr.readMap, .readClaim, .readCredit, .readNode],
      (∀ k ∈ [(0 : Byte), 1, 32], runs (c (req [k])) driver (fun t => decide ((tail 0 t).getD 2 9 = 0)) = true)
      ∧ replies (c (req [33])) driver 0x10 = true ∧ replies (c (req [255, 0])) driver 0x10 = true)
    ∧ replies (.keepalive (req [])) driver 0 = true
    ∧ (∀ g ∈ [(0 : Byte), 7], ∀ a ∈ [(0 : Byte), 3],
        runs (.readScore (req [g, a])) driver (fun t => decide ((tail 0 t).length = 35)) = true)
    ∧ runs (.readScore (req [255, 9])) driver (fun t => decide ((tail 0 t).length = 29)) = true
    ∧ (∀ args ∈ [[(8 : Byte), 0], [254, 0], [0, 4], [7, 255]], replies (.readScore (req args)) driver 0x10 = true)
    ∧ replies (.readStation (req [0])) driver 0x10 = true ∧ replies (.readStation (req [33])) driver 0x10 = true
    ∧ replies (.readStation (req [1])) driver 0 [2, 1, 0, 0, 11, 2, 1, 0, 1, 0xF4, 2, 0xEE] = true
    ∧ replies (.readStation (req [32])) driver 0 [0, 0, 0, 0, 0, 0, 255, 0, 0, 0, 2, 0xEE] = true := by decide +kernel

/-- Position 7 is the partner of 6; the bits of a set and of the tags stand at both ends of their bytes. -/
theorem test_meets_read_bytes :
    driver.map.partners.get 6 = true ∧ driver.map.role 6 = 2 ∧ driver.map.partners.get 5 = false ∧ driver.map.role 5 = 1
    ∧ driver.map.partners.get 7 = false ∧ driver.map.role 7 = 0 ∧ driver.map.partners.get 31 = false ∧ driver.map.role 31 = 0
    ∧ setBytes driver.map.partners = [64, 0, 0, 0]
    ∧ setBytes ((((driver.map.partners.set 6 false).set 0 true).set 8 true).set 31 true) = [1, 1, 0, 128]
    ∧ byte (tagsInUse (tagsFull driver)) = 255 ∧ byte (tagsInUse ((tagsFull driver).setTag 0 none)) = 254
    ∧ byte (tagsInUse driver) = 0 ∧ driver.disputedCount = 0
    ∧ (driver.setRecord 7 3 .endgame { main := 1, check := 9, state := .disputed, ruled := 0 }).disputedCount = 1 := by
  decide +kernel

/-- Four robots of alliance 1 are enrolled: stations 5 to 8. -/
def crowded : State :=
  [4, 5, 6, 7].foldl (fun s n => s.setStation n { setup.station 3 with team := 40 }) setup

theorem test_meets_EnrolWritesTheRecord :
    (driver.control.phase ≠ .setup ∧ replies (.enrol (req [9, 1, 0, 0, 1, 0])) driver 0x11 = true)
    ∧ (∀ args ∈ [[(0 : Byte), 1, 0, 0, 1, 0], [33, 1, 0, 0, 1, 0], [9, 0, 0, 0, 1, 0], [9, 3, 0, 0, 1, 0], [9, 1, 4, 0, 1, 0],
        [9, 1, 0, 0, 0, 0], [9, 1, 0, 0x27, 0x10, 0], [9, 1, 0, 0, 1, 33], [9, 1, 0, 0, 1, 9]],
        replies (.enrol (req args)) setup 0x10 = true)
    ∧ ((setup.station 0).state = .linked ∧ replies (.enrol (req [1, 1, 0, 0, 1, 0])) setup 0x12 = true)
    ∧ ((crowded.station 31).state = .vacant ∧ replies (.enrol (req [32, 1, 1, 0, 1, 0])) crowded 0x18 = true)
    ∧ ((setup.station 3).state = .enrolled ∧ runs (.enrol (req [4, 2, 3, 0x27, 0x0F, 32])) setup (fun t => decide (
        t.station 3 = { setup.station 3 with kind := some .driver, alliance := 3, team := 9999, partner := some 31 })) = true)
    ∧ ((setup.station 31).state = .vacant ∧ runs (.enrol (req [32, 1, 0, 0, 1, 0])) setup (fun t => decide (
        (t.station 31).state = .enrolled ∧ (t.area 0).frames.map (·.payload) = [[0x82, 0, 0, 32, 0, 1], [0x10, 7, 0]])) = true)
    := by decide +kernel

/-- Station 1 is in a state. -/
def inState (x : StationState) (s : State) : State := s.setStation 0 { s.station 0 with state := x }

theorem test_meets_RequestsThatChangeAStation :
    (replies (.unenrol (req [1])) driver 0x11 = true ∧ replies (.eject (req [1])) setup 0x11 = true)
    ∧ (∀ b ∈ [(0 : Byte), 33], replies (.unenrol (req [b])) setup 0x10 = true ∧ replies (.disable (req [b])) driver 0x10 = true
        ∧ replies (.enable (req [b])) driver 0x10 = true ∧ replies (.eject (req [b])) driver 0x10 = true)
    ∧ (replies (.unenrol (req [32])) setup 0x12 = true ∧ replies (.unenrol (req [1])) ended 0 = true)
    ∧ (∀ x ∈ [StationState.enrolled, .linked, .stale], runs (.disable (req [1])) (inState x driver) (fun t => decide (
        (t.station 0).state = .disabled ∧ tail 2 t = [4, 4, 0, 0, 0x4E, 0x20, 1])) = true)
    ∧ (∀ x ∈ [StationState.vacant, .disabled, .ejected], replies (.disable (req [1])) (inState x driver) 0x12 = true)
    ∧ (runs (.enable (req [1])) (inState .disabled driver) (fun t => decide ((t.station 0).state = .stale)) = true
        ∧ replies (.enable (req [1])) driver 0x12 = true)
    ∧ (replies (.eject (req [1])) (inState .vacant driver) 0x12 = true ∧ replies (.eject (req [1])) (inState .ejected driver) 0x12 = true
        ∧ runs (.eject (req [1])) driver (fun t => decide ((t.station 0).state = .ejected)) = true) := by decide +kernel

theorem test_meets_StationChangesAreToldAndDeparturesClear :
    let held := (driver.setClaim 4 { ClaimEntry.free with hold := some ⟨0, 800⟩ }).setClaim 5
      { hold := some ⟨2, 800⟩, bar := none, waiters := [⟨0, 0⟩] }
    let command : Frame := { body 1 [5, 0, 0, 1] with kind := .element }
    let loaded := (held.setArea 6 { held.area 6 with frames := [command] }).setTag 3
      (some { origin := .robot (some 0) 4, position := 4, sentOn := .ca, timer := 9 })
    let left := changeStation 0 { driver.station 0 with state := .stale } none loaded
    (loaded.station 0).state = .linked ∧ (loaded.claim 5).heldBy 0 = false ∧ (loaded.area 6).servesConsumer .chain = true
    ∧ left.claim 4 = ClaimEntry.free ∧ (left.claim 5).waiters = [] ∧ (left.area 6).frames = []
    ∧ left.tag 3 = some { origin := .robot none 4, position := 4, sentOn := .ca, timer := 9 }
    ∧ tail 0 left = [0x82, 0, 0, 1, 2, 3] := by decide +kernel

/-- The departing holder of two entries: the first goes to its waiter, at the second every waiter is of the barred alliance. -/
theorem test_meets_removal_of_holds :
    let one : ClaimEntry := { hold := some ⟨0, 800⟩, bar := some ⟨0, 60⟩, waiters := [⟨0, 7⟩, ⟨1, 7⟩, ⟨2, 50⟩, ⟨3, 0⟩] }
    let two : ClaimEntry := { hold := some ⟨0, 800⟩, bar := some ⟨1, 60⟩, waiters := [⟨2, 100⟩] }
    let three : ClaimEntry := { hold := some ⟨0, 1⟩, bar := none, waiters := [⟨2, 60000⟩, ⟨3, 0⟩] }
    let loaded := ((driver.setClaim 4 one).setClaim 5 two).setClaim 31 three
    let left := changeStation 0 { driver.station 0 with state := .stale } none loaded
    (loaded.station 0).state = .linked ∧ (∀ q ∈ [(4 : Position), 5, 31], (loaded.claim q).heldBy 0 = true)
    ∧ (∀ w ∈ [(0 : StationId), 1], (loaded.station w).alliance = 0) ∧ (∀ w ∈ [(2 : StationId), 3], (loaded.station w).alliance = 1)
    ∧ left.claim 4 = { hold := some ⟨2, 100⟩, bar := some ⟨0, 60⟩, waiters := [⟨1, 7⟩, ⟨3, 0⟩] }
    ∧ left.claim 5 = { hold := none, bar := some ⟨1, 60⟩, waiters := [⟨2, 100⟩] }
    ∧ left.claim 31 = { hold := some ⟨2, 10000⟩, bar := none, waiters := [⟨3, 0⟩] }
    ∧ (left.area 5).frames.map (·.payload.take 4) = [[7, 6, 0, 5], [7, 6, 0, 32]] := by decide +kernel

theorem test_meets_held_flags :
    let lost := driver.setStation 1 { driver.station 1 with state := .stale }
    (driver.station 1).kind ≠ some .robot ∧ (driver.station 0).kind = some .robot ∧ (driver.station 0).held = false
    ∧ (evaluateHold lost 0).station 0 = { driver.station 0 with held := true }
    ∧ tail 2 (evaluateHold lost 0) = [2, 4, 0, 0, 0x4E, 0x20, 1]
    ∧ tail 2 (evaluateHold (driver.setStation 0 { driver.station 0 with held := true }) 0) = [3, 4, 0, 0, 0x4E, 0x20, 1]
    ∧ tail 2 (evaluateHold (paused.setStation 0 { paused.station 0 with held := true }) 0) = [] := by decide +kernel

theorem test_meets_QuietExpiryMakesALinkedStationStale :
    (driver.station 0).quiet = some 500 ∧ ((inState .disabled driver).station 0).quiet = some 500
    ∧ runs (.quietExpiry 0) driver (fun t => decide (t.station 0 = { driver.station 0 with state := .stale, quiet := none }
        ∧ t.control.timer = 19500 ∧ tail 0 t = [0x82, 0, 0, 1, 2, 3])) = true
    ∧ runs (.quietExpiry 0) (inState .disabled driver) (fun t => decide ((t.area 0).frames = [] ∧ (t.station 0).quiet = none)) = true
    ∧ (driver.station 31).quiet = none ∧ keeps (.quietExpiry 31) driver = true := by decide +kernel

/-- A WRITE_RULE of the last index with every field at its greatest value, and with every field at its least. -/
def mostRule : List Byte := [47, 0x07, 0xFF, 2, 15, 63, 63, 31, 255, 5, 11, 255]

theorem test_meets_RuleTableRequestsWriteTheTable :
    (driver.control.phase.isIdle = false ∧ replies (.writeRule (req mostRule)) driver 0x11 = true
      ∧ replies (.ruleCount (req [0])) driver 0x11 = true ∧ replies (.kindDefault (req [1, 0])) driver 0x11 = true)
    ∧ (∀ p ∈ [(0, (48 : Byte)), (1, 8), (3, 3), (4, 16), (5, 64), (6, 64), (7, 32), (9, 6), (10, 12)],
        replies (.writeRule (req (mostRule.set p.1 p.2))) setup 0x10 = true)
    ∧ runs (.writeRule (req mostRule)) staged (fun t => decide (t.rule 47 =
        { kinds := 2047, sourceClass := .driver, alliances := 15, stationValue := 63, stationMask := 63, ports := 31
          phases := 255, verdict := .disable, steerArea := 11, label := 255, hits := 0 })) = true
    ∧ runs (.writeRule (req (long 12))) ended (fun t => decide (t.rule 0 = Rule.powerOn)) = true
    ∧ replies (.ruleCount (req [49])) setup 0x10 = true
    ∧ runs (.ruleCount (req [48])) setup (fun t => decide (t.classifier.active = 48)) = true
    ∧ (∀ args ∈ [[(0 : Byte), 0], [8, 0], [1, 2]], replies (.kindDefault (req args)) setup 0x10 = true)
    ∧ replies (.kindDefault (req [1, 1])) setup 0 [1, 0, 0, 0, 0, 0, 0] = true
    ∧ replies (.kindDefault (req ([7, 1] ++ long 10))) setup 0 [0, 0, 0, 0, 0, 0, 1] = true := by decide +kernel

theorem test_meets_ReadRuleReadsWhatWasWritten :
    let s := driver.setRule 47 { kinds := 2047, sourceClass := .driver, alliances := 15, stationValue := 63, stationMask := 63
                                 ports := 31, phases := 255, verdict := .disable, steerArea := 11, label := 255, hits := 0x1234 }
    replies (.readRule (req [48, 0])) s 0x10 = true ∧ replies (.readRule (req [47, 2])) s 0x10 = true
    ∧ replies (.readRule (req [0, 0])) s 0 (long 14 ++ [0]) = true
    ∧ runs (.readRule (req [47, 0])) s (fun t => decide ((tail 0 t).drop 3 = mostRule ++ [0x12, 0x34, 0]
        ∧ (t.rule 47).hits = 0x1234)) = true
    ∧ runs (.readRule (req [47, 1])) s (fun t => decide ((t.rule 47).hits = 0)) = true := by decide +kernel

theorem test_meets_MapRequestsWriteTheMap :
    (driver.control.phase ≠ .setup ∧ replies (.mapWindow (req [4, 1, 0])) driver 0x11 = true)
    ∧ (∀ args ∈ [[(5 : Byte), 1, 1], [0, 0, 1], [0, 33, 1], [0, 1, 33]],
        replies (.mapWindow (req args)) setup 0x10 = true)
    ∧ runs (.mapWindow (req [0, 1, 0])) setup (fun t => decide (t.map.homes.get 0 = ⟨1, 0⟩)) = true
    ∧ runs (.mapWindow (req [3, 32, 32])) setup (fun t => decide (t.map.homes.get 3 = ⟨32, 32⟩)) = true
    ∧ runs (.mapWindow (req ([4, 32, 1] ++ long 4))) setup (fun t => decide (t.map.shared = ⟨32, 1⟩)) = true
    ∧ (∀ args ∈ [[(0 : Byte), 1], [33, 1], [1, 2]], replies (.hide (req args)) driver 0x10 = true)
    ∧ replies (.hide (req [1, 1])) driver 0 [1, 0, 0, 0] = true
    ∧ replies (.hide (req [32, 1])) paused 0 [0, 0, 0, 0x80] = true
    ∧ replies (.hide (req ([32, 0] ++ long 5))) setup 0 [0, 0, 0, 0] = true
    ∧ (driver.control.phase.isIdle = false ∧ replies (.profile (req [1, 0, 100, 0, 0, 1, 1])) driver 0x11 = true)
    ∧ (∀ args ∈ [[(0 : Byte), 0, 100, 0, 0, 1, 1], [33, 0, 100, 0, 0, 1, 1], [1, 0, 99, 0, 0, 1, 1], [1, 0xEA, 0x61, 0, 0, 1, 1],
        [1, 0, 100, 0x27, 0x11, 1, 1], [1, 0, 100, 0, 0, 0, 1], [1, 0, 100, 0, 0, 65, 1], [1, 0, 100, 0, 0, 1, 0],
        [1, 0, 100, 0, 0, 1, 65]], replies (.profile (req args)) staged 0x10 = true)
    ∧ runs (.profile (req [1, 0, 100, 0, 0, 1, 1])) setup (fun t => decide (t.profile 0 = ⟨100, 0, 1, 1⟩)) = true
    ∧ runs (.profile (req [32, 0xEA, 0x60, 0x27, 0x10, 64, 64])) ended (fun t => decide (
        t.profile 31 = ⟨60000, 10000, 64, 64⟩)) = true := by decide +kernel

/-- Positions 7, 9, …, 21 are partners: eight of them. -/
def eightPartners : State :=
  { setup with map := { setup.map with partners := ([8, 10, 12, 14, 16, 18, 20] : List Position).foldl (·.set · true) setup.map.partners } }

theorem test_meets_PartnersAreDeclaredAndRemoved :
    (∀ c ∈ [Instr.partner, .partnerRemove],
      (driver.control.phase ≠ .setup ∧ replies (c (req [5, 1])) driver 0x11 = true)
      ∧ (∀ args ∈ [[(0 : Byte), 1], [1, 1], [33, 1], [5, 2]], replies (c (req args)) setup 0x10 = true)
      ∧ (setup.map.partners.get 6 = true ∧ replies (c (req [7, 1])) setup 0 [0x40, 0, 0, 0, 1] = true)
      ∧ (setup.map.partners.get 7 = false ∧ replies (c (req [8, 1])) setup 0x10 = true ∧ replies (c (req [6, 1])) setup 0x10 = true)
      ∧ (eightPartners.map.partners.count id = 8 ∧ replies (c (req [32, 1])) eightPartners 0x10 = true)
      ∧ (replies (c (req [2, 1])) setup 0 [0x42, 0, 0, 0, 2] = true ∧ replies (c (req [32, 1])) setup 0 [0x40, 0, 0, 0x80, 2] = true)
      ∧ replies (c (req [2, 0])) setup 0x12 = true ∧ replies (c (req [7, 0])) setup 0 [0, 0, 0, 0, 0] = true) := by decide +kernel

theorem test_meets_DecodeTakesItsStepsInOrder :
    let m := setup.map
    let hidden := { m with hideSet := (m.hideSet.set 5 true).set 0 true }
    (m.partners.get 6 = true ∧ m.partners.get 5 = false)
    ∧ (m.decode 0 6 = .shared ∧ hidden.decode 0 6 = .hidden ∧ hidden.decode 0 5 = .hidden ∧ hidden.decode 0 0 = .hidden)
    ∧ (m.decode 0 0 = .home ∧ m.decode 0 3 = .home ∧ m.decode 0 4 = .shared ∧ m.decode 0 7 = .shared ∧ m.decode 0 8 = .foreign
        ∧ m.decode 0 11 = .foreign ∧ m.decode 0 12 = .unmapped ∧ m.decode 0 31 = .unmapped ∧ m.decode 2 0 = .foreign) := by decide +kernel

theorem test_meets_FramerAndPortGateJudgeDeliveries :
    (parseFrame [1, 2, 3] = none
      ∧ runs (.frameDiscard .ml [1, 2, 3]) driver (fun t => decide ((t.port .ml).discards = 1)) = true
      ∧ runs (.frameDiscard .ml [1, 2, 3]) (driver.setPort .ml { driver.port .ml with discards := 65535 }) (fun t => decide (
          (t.port .ml).discards = 65535)) = true)
    ∧ (∀ k ∈ [Kind.mgmt, .answer, .arena, .report], runs (.portGateDrop (.rl 3) { body 1 (long 48) with kind := k }) driver (fun t =>
        decide ((t.port (.rl 3)).discards = 1)) = true)
    ∧ (∀ k ∈ [Kind.mgmt, .join, .beacon, .pilot, .telem, .element, .claim, .release, .answer, .arena, .report],
        runs (.portGateDrop .ml { body 1 [] with kind := k }) driver (fun t => decide ((t.port .ml).discards = 1)) = true)
    ∧ (body 1 (long 48)).acceptable = true := by decide +kernel

/-- Whether ComesToRules holds. -/
def comesB (k : RadioPort) (n : StationId) (f : Frame) (s : State) : Bool :=
  f.acceptable && gateAccepts (.rl k) f && decide (stationOf f.source = some n) && decide ((s.station n).state ≠ .vacant)
    && permitted f.kind (s.station n).kind
    && (decide (f.kind = .join) || decide (f.kind = .beacon) || decide ((s.station n).state = .linked))
    && phaseAdmits f.kind s.control.phase

theorem comesToRules_of {k : RadioPort} {n : StationId} {f : Frame} {s : State} (h : comesB k n f s = true) :
    ComesToRules k n f s := by
  simp only [comesB, Bool.and_eq_true, Bool.or_eq_true, decide_eq_true_eq] at h
  obtain ⟨⟨⟨⟨⟨⟨h1, h2⟩, h3⟩, h4⟩, h5⟩, h6⟩, h7⟩ := h
  exact ⟨h1, h2, h3, h4, h5, by tauto, h7⟩

/-- Whether a frame comes to its handler by the default of its kind. -/
def handledB (k : RadioPort) (n : StationId) (f : Frame) (s : State) : Bool :=
  comesB k n f s && decide (s.searchRules k n f = none) && decide (s.classifier.defaultFor f.kind = .pass)

theorem comesToHandler_of {k : RadioPort} {n : StationId} {f : Frame} {s : State} (h : handledB k n f s = true) :
    ComesToHandler k n f s none (s.heard k n) := by
  simp only [handledB, Bool.and_eq_true, decide_eq_true_eq] at h
  exact .byDefault (comesToRules_of h.1.1) h.1.2 h.2

theorem test_meets_StationAcceptanceTakesItsStepsInOrder :
    (∀ c ∈ [Instr.join, .beacon, .pilot, .telem, .element, .claim, .release], ∀ source ∈ [(0 : BitVec 6), 63],
      (body source []).acceptable = true ∧ keeps (c (.rl 0) (body source [])) driver = true)
    ∧ ((driver.station 31).state = .vacant ∧ runs (.join (.rl 0) (body 32 [0, 1, 1])) driver (fun t => decide (
          tail 2 t = [0x21, 1, 4, 0, 0, 0, 0, 0] ∧ t.stations = driver.stations)) = true
        ∧ keeps (.join (.rl 0) (body 32 [0, 1])) driver = true ∧ keeps (.beacon (.rl 0) (body 32 [])) driver = true)
    ∧ ((driver.station 0).kind = some .robot ∧ runs (.pilot (.rl 0) (body 1 [])) driver (fun t => decide (
          t = driver.setStation 0 { driver.station 0 with quiet := some 750 })) = true)
    ∧ ((driver.station 1).kind = some .driver ∧ ∀ c ∈ [Instr.telem, .element, .claim, .release],
        runs (c (.rl 0) (body 2 [])) driver (fun t => decide (
          t = driver.setStation 1 { driver.station 1 with quiet := some 750 })) = true)
    ∧ ((driver.station 3).state = .enrolled ∧ runs (.claim (.rl 0) (body 4 [])) driver (fun t => decide (
          t = driver.setStation 3 { driver.station 3 with quiet := some 750 })) = true)
    ∧ driver.heard 1 0 = driver.setStation 0 { driver.station 0 with quiet := some 750, recordedPort := some 1 }
    ∧ driver.heard 1 3 = driver.setStation 3 { driver.station 3 with quiet := some 750 } := by decide +kernel

theorem test_meets_PhaseGateRefusesByKindAndPhase :
    ((setup.station 1).kind = some .driver ∧ (setup.station 1).state = .linked
      ∧ runs (.pilot (.rl 1) (body 2 [])) auto (fun t => decide (
          t = auto.setStation 1 { auto.station 1 with quiet := some 750, recordedPort := some 1 })) = true)
    ∧ ((setup.station 0).kind = some .robot ∧ setup.control.phase.isIdle = true
        ∧ (∀ c ∈ [Instr.element, .claim, .release], answers (c (.rl 0) (body 1 [5])) setup 0x10 5 = true
            ∧ answers (c (.rl 0) (body 1 [])) ended 0x10 0 = true)
        ∧ answers (.claim (.rl 0) (body 1 [255])) paused 0x10 255 = true
        ∧ answers (.element (.rl 0) (body 1 [32])) (field (.running .transit)) 0x10 32 = true)
    ∧ (phaseAdmits .join .setup = true ∧ phaseAdmits .pilot (.running .endgame) = true ∧ phaseAdmits .pilot (.running .auto) = false
        ∧ phaseAdmits .claim (.running .auto) = true ∧ phaseAdmits .element (.paused .auto .request) = false
        ∧ phaseAdmits .release (.paused .auto .silence) = true ∧ phaseAdmits .release .staged = false) := by decide +kernel

/-- The field in DRIVER with one active rule that matches every station frame. -/
def ruled (verdict : Verdict) (s : State) : State :=
  { s.setRule 0 { kinds := 2047, sourceClass := .any, alliances := 15, stationValue := 0, stationMask := 0, ports := 31
                  phases := 255, verdict, steerArea := 4, label := 0x42, hits := 65534 } with
    classifier := { (s.setRule 0 { kinds := 2047, sourceClass := .any, alliances := 15, stationValue := 0, stationMask := 0
                                   ports := 31, phases := 255, verdict, steerArea := 4, label := 0x42, hits := 65534 }).classifier
      with active := 1 } }

def dropping (s : State) : State := { s with classifier := { s.classifier with defaults := .fill 7 .drop } }

theorem test_meets_RuleVerdictsThatStopAFrame :
    (∀ k ∈ [Kind.join, .beacon, .telem, .element, .claim, .release], ∀ v ∈ [Verdict.drop, .deny, .disable],
      comesB 0 0 { body 1 [5] with kind := k } (ruled v driver) = true
      ∧ (ruled v driver).searchRules 0 0 { body 1 [5] with kind := k } = some 0 ∧ ((ruled v driver).rule 0).verdict = v
      ∧ comesB 0 0 { body 1 [5] with kind := k } (dropping driver) = true
      ∧ (dropping driver).searchRules 0 0 { body 1 [5] with kind := k } = none
      ∧ (dropping driver).classifier.defaultFor k = .drop)
    ∧ comesB 0 1 { body 2 [5] with kind := .pilot } (ruled .drop driver) = true
    ∧ runs (.claim (.rl 0) (body 1 [5])) (ruled .drop driver) (fun t => decide ((t.rule 0).hits = 65535 ∧ tail 2 t = [])) = true
    ∧ answers (.claim (.rl 0) (body 1 [5])) (ruled .deny driver) 0x11 5 = true
    ∧ answers (.join (.rl 0) (body 1 [5])) (ruled .deny driver) 0x11 0 = true
    ∧ runs (.beacon (.rl 0) (body 1 [])) (ruled .deny driver) (fun t => decide (tail 2 t = [])) = true
    ∧ runs (.telem (.rl 0) (body 1 [])) (ruled .disable driver) (fun t => decide ((t.station 0).state = .disabled)) = true
    ∧ runs (.beacon (.rl 0) (body 1 [])) (inState .ejected (ruled .disable driver)) (fun t => decide (
        (t.station 0).state = .ejected)) = true
    ∧ runs (.telem (.rl 0) (body 1 [])) (dropping driver) (fun t => decide (t = (dropping driver).heard 0 0)) = true
    ∧ (copyFrame 0x42 3 { body 1 (long 31) with kind := .telem }).payload.take 11 = [0x87, 0, 0, 4, 39, 0x41, 1, 0, 4, 31, 0]
    ∧ (copyFrame 0x42 3 { body 1 (long 48) with kind := .telem }).payload = [0x87, 0, 0, 4, 40, 0x41, 1, 0, 4, 48, 0] ++ long 34
    := by decide +kernel

/-- Every verdict that lets a frame pass brings it to its handler. -/
theorem test_meets_ComesToHandler :
    ComesToHandler 0 0 { body 1 [5, 0, 0] with kind := .claim } driver none (driver.heard 0 0)
    ∧ ComesToHandler 0 0 { body 1 [5, 0, 0] with kind := .claim } (ruled .pass driver) none
        (countHit 0 ((ruled .pass driver).heard 0 0))
    ∧ (∃ u, ComesToHandler 0 0 { body 1 [5, 0, 0] with kind := .claim } (ruled .copy driver) none u
        ∧ (u.area 1).frames.map (·.payload) = [[0x87, 0, 0, 1, 11, 0x61, 1, 0, 4, 3, 0, 5, 0, 0, 0x4F, 0x24]])
    ∧ ∃ u, ComesToHandler 0 0 { body 1 [] with kind := .telem } (ruled .steer driver) (some 4) u :=
  ⟨comesToHandler_of (by decide +kernel),
   .byPass (comesToRules_of (by decide +kernel)) 0 (by decide +kernel) (by decide +kernel),
   ⟨_, .byCopy (comesToRules_of (by decide +kernel)) 0 (by decide +kernel) (by decide +kernel), by decide +kernel⟩,
   ⟨_, .bySteer (comesToRules_of (by decide +kernel)) 0 (by decide +kernel) (by decide +kernel)⟩⟩

theorem test_meets_JoinAndBeaconLinkAStation :
    (∀ x ∈ [StationState.enrolled, .linked, .stale, .disabled, .ejected], ∀ payload ∈ [[], [0, 11], [0, 11, 1]],
      handledB 0 0 { body 1 payload with kind := .join } (inState x driver) = true
      ∧ handledB 0 0 { body 1 payload with kind := .beacon } (inState x driver) = true)
    ∧ runs (.join (.rl 0) (body 1 [0, 11])) driver (fun t => decide (t = driver.heard 0 0)) = true
    ∧ answers (.join (.rl 0) (body 1 [0, 99, 1])) driver 5 0 4 = true
    ∧ (∀ x ∈ [StationState.enrolled, .stale], answers (.join (.rl 0) (body 1 [0, 11, 1])) (inState x driver) 5 0 4 = true
        ∧ answers (.join (.rl 0) (body 1 [0, 12, 1])) (inState x driver) 0x20 0 = true
        ∧ answers (.join (.rl 0) (body 1 [0, 11, 2])) (inState x driver) 0x20 0 = true)
    ∧ answers (.join (.rl 0) (body 1 [0, 11, 1])) (inState .disabled driver) 0x22 0 = true
    ∧ answers (.join (.rl 0) (body 1 [0, 11, 1])) (inState .ejected driver) 0x23 0 = true
    ∧ runs (.join (.rl 1) (body 4 [0, 33, 1])) driver (fun t => decide ((t.station 3).state = .linked
        ∧ (t.station 3).recordedPort = some 1 ∧ tail 5 t = [5, 1, 4, 0, 0, 0, 0, 4] ∧ tail 0 t = [0x82, 0, 0, 4, 1, 2])) = true
    ∧ runs (.beacon (.rl 1) (body 1 [])) (inState .stale driver) (fun t => decide ((t.station 0).state = .linked
        ∧ (t.station 0).recordedPort = some 1 ∧ tail 0 t = [0x82, 0, 0, 1, 3, 2])) = true
    ∧ runs (.beacon (.rl 1) (body 1 [])) driver (fun t => decide ((t.station 0).recordedPort = some 1)) = true
    ∧ runs (.beacon (.rl 1) (body 4 [])) driver (fun t => decide ((t.station 3).state = .enrolled
        ∧ (t.station 3).recordedPort = none)) = true := by decide +kernel

theorem test_meets_PilotAndTelemGoToThePartner :
    handledB 0 1 { body 2 [1, 2] with kind := .pilot, destination := 1 } driver = true
    ∧ handledB 0 1 { body 2 [1, 2] with kind := .pilot, destination := 3 } driver = true
    ∧ handledB 0 0 { body 1 [] with kind := .telem, destination := 2 } driver = true
    ∧ runs (.pilot (.rl 0) { body 2 [1, 2] with destination := 1 }) driver (fun t => decide ((t.area 3).frames =
        [{ body 2 [1, 2] with kind := .pilot, destination := 1 }])) = true
    ∧ runs (.pilot (.rl 0) { body 2 [1, 2] with destination := 3 }) driver (fun t => decide (t = driver.heard 0 1)) = true
    ∧ runs (.telem (.rl 0) { body 1 [] with destination := 2 }) driver (fun t => decide ((t.area 4).frames =
        [{ body 1 [] with kind := .telem, destination := 2 }])) = true
    ∧ runs (.telem (.rl 0) { body 1 [] with destination := 63 }) driver (fun t => decide (t = driver.heard 0 0)) = true
    := by decide +kernel

def holding (q : Position) (n : StationId) (s : State) : State :=
  s.setClaim q { s.claim q with hold := some { holder := n, remaining := 800 } }

def waitingAt (q : Position) (ns : List StationId) (s : State) : State :=
  s.setClaim q { s.claim q with waiters := ns.map fun n => { station := n, requested := 300 } }

def barredAt (q : Position) (a : Alliance) (remaining : Nat) (s : State) : State :=
  s.setClaim q { s.claim q with bar := some { alliance := a, remaining } }

def hidingAt (q : Position) (s : State) : State := { s with map := { s.map with hideSet := s.map.hideSet.set q true } }

def heldRobot (s : State) : State := s.setStation 0 { s.station 0 with held := true }

def lostNode (q : Position) (s : State) : State := s.setNode q { s.node q with state := .lost, misses := 3 }

/-- Station 1 sends an ELEMENT, a CLAIM or a RELEASE with a payload. -/
def sends (c : Port → FrameBody → Instr) (payload : List Byte) : Instr := c (.rl 0) (body 1 payload)

theorem test_meets_ElementIsAdmittedOrRefused :
    let ask := fun q : Byte => sends .element [q, 127, 0, 1]
    (∀ payload ∈ [[], [(5 : Byte), 0, 0], [0, 0, 0, 1], [33, 0, 0, 1], [1, 127, 0, 1], [32, 128, 0, 1]],
      handledB 0 0 { body 1 payload with kind := .element } driver = true)
    ∧ answers (sends .element []) driver 0x29 0 = true ∧ answers (sends .element [5, 0, 0]) driver 0x29 0 = true
    ∧ answers (ask 0) driver 0x29 0 = true ∧ answers (ask 33) driver 0x29 33 = true
    ∧ answers (ask 1) (heldRobot driver) 0x2A 1 = true ∧ answers (ask 8) (hidingAt 7 driver) 0x12 8 = true
    ∧ answers (ask 9) driver 0x13 9 = true ∧ answers (ask 12) driver 0x13 12 = true
    ∧ answers (ask 13) driver 0x14 13 = true ∧ answers (ask 32) driver 0x14 32 = true
    ∧ answers (ask 4) (lostNode 3 driver) 0x15 4 = true ∧ answers (ask 5) driver 0x17 5 = true
    ∧ answers (ask 7) (holding 6 0 driver) 0x17 7 = true
    ∧ answers (ask 1) { driver with credit := { driver.credit with balances := .fill 32 15 } } 0x18 1 15 = true
    ∧ answers (ask 1) (driver.setArea 6 Area.disabled) 0x19 1 = true
    ∧ answers (ask 1) (fullArea 6 false driver) 0x19 1 = true
    ∧ (∀ q ∈ [(1 : Byte), 4], runs (ask q) { driver with credit := { driver.credit with balances := .fill 32 16 } } (fun t =>
        decide (t.balance 0 = 0 ∧ t.balance 1 = 16 ∧ (t.area 6).frames = [{ body 1 [q, 127, 0, 1] with kind := .element }]
          ∧ tail 2 t = [])) = true)
    ∧ (∀ q ∈ [(6 : Byte), 7], runs (ask q) (holding 5 0 driver) (fun t => decide ((t.area 6).frames.length = 1)) = true)
    := by decide +kernel

theorem test_meets_ClaimIsGrantedQueuedOrRefused :
    let ask := fun q : Byte => sends .claim [q, 3, 0xE8]
    (∀ payload ∈ [[], [(5 : Byte), 0], [0, 3, 0xE8], [33, 3, 0xE8], [1, 3, 0xE8], [5, 3, 0xE8], [32, 3, 0xE8]],
      handledB 0 0 { body 1 payload with kind := .claim } driver = true)
    ∧ answers (sends .claim []) driver 0x29 0 = true ∧ answers (sends .claim [5, 0]) driver 0x29 0 = true
    ∧ answers (ask 0) driver 0x29 0 = true ∧ answers (ask 33) driver 0x29 33 = true
    ∧ answers (ask 5) (heldRobot driver) 0x2A 5 = true ∧ answers (ask 5) (hidingAt 4 driver) 0x12 5 = true
    ∧ answers (ask 9) driver 0x13 9 = true ∧ answers (ask 32) driver 0x14 32 = true
    ∧ answers (ask 1) driver 0x1A 1 = true ∧ answers (ask 4) driver 0x1A 4 = true ∧ answers (ask 7) driver 0x1B 7 = true
    ∧ answers (ask 5) (lostNode 4 driver) 0x15 5 = true ∧ answers (ask 5) (holding 4 0 driver) 1 5 800 = true
    ∧ answers (ask 5) (waitingAt 4 [2, 0] (holding 4 2 driver)) 2 5 2 = true
    ∧ answers (ask 5) (waitingAt 7 [0] (holding 7 2 driver)) 0x1F 5 = true
    ∧ answers (ask 5) (holding 5 0 (holding 7 0 driver)) 0x1E 5 = true
    ∧ answers (ask 5) (barredAt 4 0 1 driver) 0x1C 5 = true
    ∧ answers (ask 5) (waitingAt 4 [4, 5, 6, 7] (holding 4 2 driver)) 0x1D 5 = true
    ∧ answers (ask 5) (waitingAt 4 [4, 5, 6] (holding 4 2 driver)) 2 5 4 = true
    ∧ (∀ w ∈ [([(0 : Byte), 0], 10000), ([0, 99], 100), ([0, 100], 100), ([0x27, 0x10], 10000), ([0x27, 0x11], 10000)],
        answers (sends .claim (5 :: w.1)) (holding 5 0 driver) 1 5 w.2 = true)
    ∧ runs (ask 8) (barredAt 7 1 500 driver) (fun t => decide (t.claim 7 =
        { hold := some ⟨0, 1000⟩, bar := some ⟨1, 500⟩, waiters := [] })) = true
    ∧ answers (ask 8) (barredAt 7 0 0 driver) 0x1C 8 = true := by decide +kernel

theorem test_meets_ReleaseGivesBackOrWithdraws :
    let ask := fun q : Byte => sends .release [q]
    (∀ payload ∈ [[], [(0 : Byte)], [1], [32], [33]], handledB 0 0 { body 1 payload with kind := .release } driver = true)
    ∧ answers (sends .release []) driver 0x29 0 = true ∧ answers (ask 0) driver 0x29 0 = true
    ∧ answers (ask 33) driver 0x29 33 = true ∧ answers (ask 7) driver 0x17 7 = true
    ∧ answers (ask 1) driver 0x17 1 = true ∧ answers (ask 32) driver 0x17 32 = true
    ∧ answers (ask 5) (holding 4 0 driver) 3 5 = true
    ∧ runs (ask 5) (waitingAt 4 [2] (holding 4 0 driver)) (fun t => decide (t.claim 4 =
        { hold := some ⟨2, 300⟩, bar := none, waiters := [] } ∧ tail 5 t = [7, 6, 0, 5, 0, 0, 1, 0x2C])) = true
    ∧ answers (ask 5) (waitingAt 4 [0] (holding 4 2 driver)) 4 5 = true := by decide +kernel

theorem test_meets_HoldsAndBarsExpireAndEntriesAreHandedOver :
    let lead := { driver with map := { driver.map with profiles := driver.map.profiles.set 4 ⟨250, 900, 1, 1⟩ } }
    let two := barredAt 4 0 500 (waitingAt 4 [0, 2] lead)
    (two.claim 4).waiters = [⟨0, 300⟩] ++ [⟨2, 300⟩] ∧ (two.station 0).alliance = 0 ∧ (two.station 2).alliance ≠ 0
    ∧ (handOver 4 two).claim 4 = { hold := some ⟨2, 250⟩, bar := some ⟨0, 500⟩, waiters := [⟨0, 300⟩] }
    ∧ handOver 4 (barredAt 4 0 500 (waitingAt 4 [0] lead)) = barredAt 4 0 500 (waitingAt 4 [0] lead)
    ∧ lead.control.phase.isRunning = true ∧ ((holding 4 0 lead).claim 4).hold = some ⟨0, 800⟩
    ∧ runs (.holdExpiry 4) (holding 4 0 lead) (fun t => decide (t.claim 4 = { hold := none, bar := some ⟨0, 900⟩, waiters := [] }
        ∧ tail 2 t = [6, 6, 0, 5, 0, 0, 0, 0] ∧ t.control.timer = 19200)) = true
    ∧ runs (.barExpiry 4) two (fun t => decide (t.claim 4 = { hold := some ⟨0, 250⟩, bar := none, waiters := [⟨2, 300⟩] })) = true
    ∧ runs (.barExpiry 4) (holding 4 2 two) (fun t => decide ((t.claim 4).hold = some ⟨2, 300⟩ ∧ (t.claim 4).bar = none)) = true
    ∧ paused.control.phase.isRunning = false ∧ keeps (.holdExpiry 4) (holding 4 0 paused) = true
    ∧ keeps (.barExpiry 4) (barredAt 4 0 500 paused) = true
    ∧ (lead.claim 4).hold = none ∧ (lead.claim 4).bar = none ∧ keeps (.holdExpiry 4) lead = true
    ∧ keeps (.barExpiry 4) lead = true := by decide +kernel

theorem test_meets_CreditIsSetAndRefilled :
    (driver.control.phase.isIdle = false ∧ replies (.creditParams (req [4, 4])) driver 0x11 = true)
    ∧ (∀ args ∈ [[(0 : Byte), 4], [65, 4], [4, 0], [4, 16]], replies (.creditParams (req args)) staged 0x10 = true)
    ∧ replies (.creditParams (req [64, 15])) setup 0 [240] = true ∧ replies (.creditParams (req [1, 1])) ended 0 [16] = true
    ∧ driver.control.phase.isRunning = true
    ∧ runs .creditTick { driver with credit := { driver.credit with balances := (Table.fill 32 63).set 0 0 } } (fun t =>
        decide (t.balance 0 = 4 ∧ t.balance 1 = 64 ∧ t.control.accumulator = 0 ∧ t.control.timer = 19990)) = true
    ∧ keeps .creditTick paused = true := by decide +kernel

theorem test_meets_AreasAreLaidOutAndJoined :
    let busy := fullArea 6 false setup
    (driver.control.phase.isBetween = false ∧ replies (.area (req [7, 0, 200, 0, 210])) driver 0x11 = true
      ∧ replies (.joinArea (req [7, 5, 0])) driver 0x11 = true)
    ∧ (∀ args ∈ [[(12 : Byte), 0, 200, 0, 210], [7, 1, 1, 1, 1], [7, 0, 200, 1, 1]], replies (.area (req args)) setup 0x10 = true)
    ∧ (∀ args ∈ [[(12 : Byte), 5, 0], [7, 6, 0], [7, 254, 0], [7, 5, 3]],
        replies (.joinArea (req args)) setup 0x10 = true)
    ∧ replies (.area (req [6, 0, 200, 0, 210])) busy 0x13 = true ∧ replies (.joinArea (req [6, 255, 9])) busy 0x13 = true
    ∧ replies (.joinArea (req [6, 5, 0])) busy 0x13 = true
    ∧ replies (.area (req [11, 0, 15, 0, 17])) setup 0x14 = true
    ∧ runs (.area (req [11, 0, 16, 0, 20])) setup (fun t => decide ((t.area 11).start = 16 ∧ (t.area 11).stop = 20)) = true
    ∧ runs (.area (req [11, 0, 80, 1, 0])) ended (fun t => decide ((t.area 11).stop = 256)) = true
    ∧ runs (.area (req [6, 1, 0, 0, 0])) setup (fun t => decide (t.area 6 = { Area.disabled with start := 256 })) = true
    ∧ runs (.joinArea (req [6, 255, 9])) setup (fun t => decide ((t.area 6).join = none)) = true
    ∧ replies (.joinArea (req [11, 5, 2])) setup 0x12 = true ∧ replies (.joinArea (req [6, 0, 1])) setup 0x14 = true
    ∧ runs (.joinArea (req [6, 0, 0])) setup (fun t => decide ((t.area 6).join = some ⟨.port .ml, .urgent⟩)) = true
    ∧ runs (.joinArea (req [6, 5, 2])) setup (fun t => decide ((t.area 6).join = some ⟨.chain, .bulk⟩)) = true := by decide +kernel

theorem test_meets_AreasAreClearedAndRead :
    let command : Frame := { body 1 [5, 0, 0, 1] with kind := .element }
    let loaded := driver.setArea 6 { driver.area 6 with frames := [command, command], peak := 9, drops := 8, notified := true }
    replies (.clearArea (req [12])) driver 0x10 = true
    ∧ replies (.readArea (req [12, 0])) driver 0x10 = true ∧ replies (.readArea (req [0, 2])) driver 0x10 = true
    ∧ (loaded.area 6).join = some ⟨.chain, .normal⟩ ∧ replies (.clearArea (req [6])) loaded 0 [0, 2] = true
    ∧ answers (.clearArea (req [6])) loaded 0x24 5 = true
    ∧ (loaded.area 11).join = none ∧ replies (.clearArea (req [11])) loaded 0 [0, 0] = true
    ∧ replies (.readArea (req [6, 1])) loaded 0 [0, 70, 0, 80, 5, 1, 0, 2, 0, 9, 0, 8, 1] = true
    ∧ runs (.readArea (req [6, 1])) loaded (fun t => decide (t.area 6 = { loaded.area 6 with peak := 2, drops := 0, notified := false })) = true
    ∧ runs (.readArea (req [6, 0])) loaded (fun t => decide (t.area 6 = loaded.area 6)) = true
    ∧ replies (.readArea (req [11, 0])) loaded 0 [0, 0, 0, 0, 255, 255, 0, 0, 0, 0, 0, 0, 0] = true := by decide +kernel

theorem test_meets_PortsReceiveTakeAndSend :
    let telem : Frame := { body 1 [9] with kind := .telem, label := 0x55 }
    let up := (driver.setPort (.rl 0) { driver.port (.rl 0) with line := .up }).setArea 4 { driver.area 4 with frames := [telem] }
    let sending := up.setPort (.rl 0) { up.port (.rl 0) with transmitter := some ⟨3, [1]⟩, receive := .receiving [1] }
    (driver.port .ml).receive = .idle ∧ (sending.port (.rl 0)).receive = .receiving [1]
    ∧ runs (.receiveStart .ml (long 65)) driver (fun t => decide ((t.port .ml).receive = .receiving (long 64))) = true
    ∧ keeps (.receiveStart (.rl 0) [2]) sending = true
    ∧ runs (.lineUp (.rl 3)) driver (fun t => decide ((t.port (.rl 3)).line = .up)) = true
    ∧ runs (.lineDown (.rl 0)) sending (fun t => decide (t.port (.rl 0) = { sending.port (.rl 0) with line := .down, receive := .idle })) = true
    ∧ (sending.port (.rl 0)).transmitter = some ⟨3, [1]⟩ ∧ keeps (.transmitComplete (.rl 0) 2) sending = true
    ∧ runs (.transmitComplete (.rl 0) 3) sending (fun t => decide ((t.port (.rl 0)).transmitter = none)) = true
    ∧ keeps (.transmitComplete .ml 0) sending = true
    ∧ runs (.linkReset (req [1])) sending (fun t => decide ((t.port (.rl 0)).transmitter = none ∧ (t.port (.rl 0)).receive = .idle)) = true
    ∧ (∀ p ∈ [(0 : Byte), 4, 5, 6], replies (.linkReset (req [p])) sending 0 = true)
    ∧ replies (.linkReset (req [7])) sending 0x10 = true
    ∧ (up.port (.rl 0)).transmitter = none ∧ (up.port (.rl 0)).line = .up ∧ up.joinedArea (.port (.rl 0)) .bulk = some 4
    ∧ runs (.transmitterTake (.rl 0)) up (fun t => decide ((t.area 4).frames = []
        ∧ (t.port (.rl 0)).transmitter = some ⟨0, Frame.wire { telem with label := 0 }⟩)) = true
    ∧ (∀ l ∈ [Lane.urgent, .normal], up.joinedArea (.port (.rl 0)) l ≠ some 4)
    ∧ keeps (.transmitterTake (.rl 0)) sending = true ∧ keeps (.transmitterTake .ml) driver = true
    ∧ keeps (.transmitterTake (.rl 1)) (up.setPort (.rl 1) { up.port (.rl 1) with line := .up }) = true := by decide +kernel

/-- What an end's outgoing side holds, the message on the line first. -/
def outgoing (e : ChainEnd) (t : State) : List ChainMessage := (t.side e).onLine.toList ++ (t.side e).waiting

def message (type : ChainType) (position : Nat) : ChainMessage := { type, position, tag := 0, code := 0, value := 0 }

def inRing (s : State) : State := { s with chain := { s.chain with mode := .ring } }

theorem test_meets_ChainIsConfiguredAndSurveyed :
    (driver.control.phase ≠ .setup ∧ replies (.chainConfig (req [0, 0, 20])) driver 0x11 = true)
    ∧ (∀ args ∈ [[(2 : Byte), 0, 20], [0, 0, 1], [0, 0, 251]], replies (.chainConfig (req args)) setup 0x10 = true)
    ∧ replies (.chainConfig (req [1, 0, 2])) (surveying .ca 0 setup) 0x13 = true
    ∧ runs (.chainConfig (req [0, 0, 2])) setup (fun t => decide (t.chain.replyTimeout = 2 ∧ t.chain.nodes = setup.chain.nodes)) = true
    ∧ runs (.chainConfig (req [1, 0, 250])) setup (fun t => decide (t.chain.replyTimeout = 250 ∧ t.chain.mode = .ring
        ∧ t.chain.nodes = .fill 32 Node.powerOn)) = true
    ∧ (driver.control.phase.isBetween = false ∧ replies (.census (req [])) driver 0x11 = true)
    ∧ replies (.census (req [])) (surveying .ca 0 ended) 0x13 = true
    ∧ runs (.census (req [])) ended (fun t => decide (tail 0 t = [0x51, 7, 1] ∧ outgoing .ca t = [message .probe 1]
        ∧ t.chain.census = some ⟨7, .ca, 0, 20⟩)) = true := by decide +kernel

theorem test_meets_CensusProbesThenWakes :
    let absent := { setup with chain := { setup.chain with nodes := .fill 32 Node.powerOn } }
    (surveying .ca 0 absent).chain.census = some ⟨7, .ca, 0, 20⟩
    ∧ runs .probeTimeout (surveying .ca 0 absent) (fun t => decide (outgoing .ca t = [message .probe 2]
        ∧ t.chain.census = some ⟨7, .ca, 1, 20⟩)) = true
    ∧ runs .probeTimeout (surveying .ca 31 absent) (fun t => decide (outgoing .ca t = [message .wake 0, message .resume 0]
        ∧ t.chain.census = none ∧ tail 0 t = [0x78, 7, 0, 0])) = true
    ∧ runs .probeTimeout (surveying .ca 31 (inRing absent)) (fun t => decide (outgoing .cb t = [message .probe 1]
        ∧ t.chain.census = some ⟨7, .cb, 0, 20⟩)) = true
    ∧ runs .probeTimeout (surveying .cb 30 (inRing absent)) (fun t => decide (outgoing .cb t = [message .probe 32])) = true
    ∧ runs (.probeReply .ca 1 6) (surveying .ca 0 absent) (fun t => decide (t.node 0 = ⟨.present, some .platform, .ca, 0⟩
        ∧ outgoing .ca t = [message .probe 2])) = true
    ∧ runs (.probeReply .cb 32 0) (surveying .cb 31 (inRing absent)) (fun t => decide (t.node 31 = ⟨.ready, some .other, .cb, 0⟩
        ∧ outgoing .cb t = [message .wake 0, message .resume 0] ∧ tail 0 t = [0x78, 7, 0, 1])) = true
    ∧ keeps (.probeReply .cb 1 0) (surveying .ca 0 absent) = true ∧ keeps (.probeReply .ca 2 0) (surveying .ca 0 absent) = true
    ∧ setup.chain.census = none ∧ keeps .probeTimeout setup = true ∧ keeps (.probeReply .ca 5 3) setup = true
    ∧ runs (.probeReply .cb 5 0) (lostNode 4 setup) (fun t => decide (t.node 4 = readyNode .goal)) = true
    := by decide +kernel

theorem test_meets_DirectCommandsTakeATagOrWait :
    let one := driver.setTag 0 (some { origin := .direct 5, position := 0, sentOn := .ca, timer := 9 })
    (∀ q ∈ [(0 : Byte), 33], replies (.elementDirect (req [q, 1, 0, 2])) driver 0x10 = true)
    ∧ replies (.elementDirect (req [1, 1, 0, 2])) (surveying .ca 0 setup) 0x13 = true
    ∧ one.tag 0 ≠ none ∧ one.tag 1 = none
    ∧ runs (.elementDirect (req [1, 1, 0, 2])) driver (fun t => decide (tail 0 t = [0x52, 7, 1] ∧ outgoing .ca t = [⟨.command, 1, 0, 1, 2⟩])) = true
    ∧ runs (.elementDirect (req [32, 0x80, 0xFF, 0xFE])) one (fun t => decide (outgoing .ca t = [⟨.command, 32, 1, 0x80, 0xFFFE⟩]
        ∧ t.tag 1 = some ⟨.direct 7, 31, .ca, 20⟩)) = true
    ∧ (∀ t, (tagsFull driver).tag t ≠ none)
    ∧ runs (.elementDirect (req [32, 1, 0, 2])) (tagsFull driver) (fun t => decide (t.chain.slot = some ⟨7, 31, 1, 2⟩ ∧ outgoing .ca t = [])) = true
    ∧ replies (.elementDirect (req [1, 1, 0, 2])) ((tagsFull driver).setSlot (some ⟨6, 0, 1, 2⟩)) 0x13 = true
    ∧ (one.setSlot (some ⟨6, 2, 1, 2⟩)).chain.slot = some ⟨6, 2, 1, 2⟩ ∧ one.chain.census = none
    ∧ runs .pendingSend (one.setSlot (some ⟨6, 2, 1, 2⟩)) (fun t => decide (t.chain.slot = none
        ∧ outgoing .ca t = [⟨.command, 3, 1, 1, 2⟩] ∧ t.tag 1 = some ⟨.direct 6, 2, .ca, 20⟩)) = true
    ∧ keeps .pendingSend one = true ∧ keeps .pendingSend ((tagsFull driver).setSlot (some ⟨6, 0, 1, 2⟩)) = true
    ∧ keeps .pendingSend ((surveying .ca 0 one).setSlot (some ⟨6, 0, 1, 2⟩)) = true := by decide +kernel

/-- A command of station 1 to a position is stored for the chain. -/
def stored (q : Byte) (s : State) : State :=
  s.setArea 6 { s.area 6 with frames := [{ body 1 [q, 0x12, 1, 0xF4] with kind := .element }] }

theorem test_meets_DequeueRechecksAndSends :
    let s := stored 1 driver
    (s.chain.halted = false ∧ s.chain.census = none ∧ s.chain.slot = none ∧ s.tag 0 = none)
    ∧ s.joinedArea .chain .normal = some 6 ∧ s.joinedArea .chain .urgent = none
    ∧ runs .dequeue s (fun t => decide ((t.area 6).frames = [] ∧ outgoing .ca t = [⟨.command, 1, 0, 0x12, 500⟩]
        ∧ t.tag 0 = some ⟨.robot (some 0) 4, 0, .ca, 20⟩)) = true
    ∧ answers .dequeue (stored 1 (field (.running .transit))) 0x10 1 = true
    ∧ answers .dequeue (hidingAt 7 (stored 8 driver)) 0x12 8 = true ∧ answers .dequeue (stored 32 driver) 0x15 32 = true
    ∧ answers .dequeue (stored 5 driver) 0x17 5 = true
    ∧ runs .dequeue (holding 5 0 (stored 7 driver)) (fun t => decide (outgoing .ca t = [⟨.command, 7, 0, 0x12, 500⟩])) = true
    ∧ keeps .dequeue driver = true ∧ keeps .dequeue (stored 1 paused) = true ∧ keeps .dequeue (tagsFull s) = true
    ∧ keeps .dequeue (surveying .ca 0 s) = true ∧ keeps .dequeue (s.setSlot (some ⟨6, 0, 1, 2⟩)) = true := by decide +kernel

theorem test_meets_RepliesAndTimeoutsEndTransactions :
    let x : TagRecord := { origin := .robot (some 0) 4, position := 4, sentOn := .ca, timer := 9 }
    let s := driver.setTag 7 (some x)
    let direct := driver.setTag 0 (some { x with origin := .direct 6, position := 31 })
    s.tag 7 = some x ∧ (s.node 4).state = .ready ∧ (direct.node 31).state = .absent
    ∧ runs (.reply .cb 5 7 0 0x1234) s (fun t => decide (tail 2 t = [0, 5, 4, 5, 0x12, 0x34, 0, 0] ∧ t.tag 7 = none)) = true
    ∧ answers (.reply .ca 5 7 1 0x1234) s 0x27 5 = true ∧ answers (.reply .ca 5 7 2 0x1234) s 0x28 5 = true
    ∧ keeps (.reply .ca 32 0 0 1) direct = true
    ∧ runs (.reply .ca 4 7 2 0) (s.setNode 3 { s.node 3 with misses := 2 }) (fun t => decide ((t.node 3).misses = 0 ∧ t.tag 7 = some x)) = true
    ∧ runs (.replyTimeout 7) s (fun t => decide (t.tag 7 = none ∧ (t.node 4).misses = 1
        ∧ (tail 2 t).headD 0 = 0x26 ∧ t.control.timer = 19991)) = true
    ∧ runs (.replyTimeout 0) direct (fun t => decide (tail 0 t = [0x79, 6, 0, 0x26, 32, 0, 0] ∧ t.node 31 = direct.node 31)) = true
    ∧ s.tag 3 = none ∧ keeps (.replyTimeout 3) s = true
    ∧ (∀ tag ∈ [(3 : Byte), 8, 255], keeps (.reply .ca 5 tag 0 1) s = true ∧ keeps (.reply .ca 32 tag 2 1) s = true
        ∧ runs (.reply .ca 5 tag 2 1) (lostNode 4 s) (fun t => decide (t.node 4 = readyNode .goal ∧ t.tag 7 = some x)) = true)
    := by decide +kernel

theorem test_meets_NodesAreHeardAndLost :
    let tired := driver.setNode 4 { driver.node 4 with misses := 2 }
    (driver.node 31).state = .absent ∧ hear 31 driver = driver ∧ chargeMiss 31 driver = driver
    ∧ ((lostNode 4 driver).node 4).state = .lost ∧ (hear 4 (lostNode 4 driver)).node 4 = readyNode .goal
    ∧ tail 0 (hear 4 (lostNode 4 driver)) = [0x83, 0, 0, 5, 3, 2, 0]
    ∧ (tired.node 4).state = .ready ∧ (hear 4 tired).node 4 = readyNode .goal
    ∧ ((chargeMiss 4 driver).node 4).misses = 1 ∧ ((chargeMiss 4 (lostNode 4 driver)).node 4).misses = 3
    ∧ tail 0 (chargeMiss 4 tired) = [0x83, 0, 0, 5, 2, 3, 0] ∧ (chargeMiss 4 tired).node 5 = tired.node 5
    ∧ ((chargeMiss 4 (inRing tired)).node 5).servingEnd = .cb ∧ ((chargeMiss 4 (inRing tired)).node 3).servingEnd = .ca
    ∧ (chargeMiss 4 (inRing tired)).node 12 = tired.node 12
    ∧ ((chargeMiss 4 (inRing tired)).area 0).frames.map (·.payload) = [0x83, 0, 0, 5, 2, 3, 0]
        :: [(6 : Byte), 7, 8, 9, 10, 11, 12].map fun q => [0x83, 0, 0, q, 2, 2, 1] := by decide +kernel

/-- Goal slot 7 stands at position 5. -/
def scoring (s : State) : State :=
  let goal : Goal := { position := some 4, wAuto := 5, wDriver := 3, wEndgame := 2, tolerance := 1, settleTime := 400 }
  { s with tally := { s.tally with goals := s.tally.goals.set 7 goal } }

def scored (x : TallyRecord) (s : State) : State := (scoring s).setRecord 7 1 .driver x

theorem test_meets_SenseCountsAtItsGoal :
    (driver.node 4).state = .ready ∧ (driver.node 31).state = .absent ∧ keeps (.sense .ca 32 0x11) driver = true
    ∧ keeps (.sense .ca 5 0x11) driver = true ∧ keeps (.sense .ca 5 0x11) (hidingAt 4 (scoring driver)) = true
    ∧ keeps (.sense .ca 5 0x11) (scoring staged) = true ∧ keeps (.sense .ca 5 0x11) (scoring ended) = true
    ∧ runs (.sense .ca 5 0x1F) (scoring driver) (fun t => decide (t.record 7 1 .driver = ⟨15, 0, .opened, 0⟩
        ∧ t.tally.settle.get 7 = some 400)) = true
    ∧ runs (.sense .cb 5 0x91) (scored ⟨1, 255, .disputed, 0⟩ driver) (fun t => decide (t.record 7 1 .driver = ⟨1, 255, .opened, 0⟩)) = true
    ∧ runs (.sense .cb 5 0x9F) (scored ⟨1, 2, .ruled, 9⟩ paused) (fun t => decide (t.record 7 1 .driver = ⟨1, 17, .ruled, 9⟩)) = true
    ∧ runs (.sense .ca 5 0x71) (scoring (field (.running .transit))) (fun t => decide ((t.record 7 3 .auto).main = 1)) = true
    ∧ runs (.sense .ca 5 0x01) (scoring { ended with tally := { ended.tally with final := .running 5 } }) (fun t => decide (
        (t.record 7 0 .endgame).main = 1)) = true := by decide +kernel

theorem test_meets_NodesAndEndsAreReset :
    let x : TagRecord := { origin := .robot (some 0) 4, position := 4, sentOn := .ca, timer := 9 }
    let busy := (paused.setTag 7 (some x)).setTag 2 (some { x with origin := .direct 6 })
    let sent := busy.setSide .ca { onLine := some (message .command 5), waiting := [message .halt 0, message .probe 1] }
    (¬(driver.control.phase.isBetween = true ∨ driver.control.phase.isPaused = true)
      ∧ replies (.resetNode (req [5])) driver 0x11 = true)
    ∧ (∀ q ∈ [(0 : Byte), 33], replies (.resetNode (req [q])) paused 0x10 = true)
    ∧ replies (.resetNode (req [1])) (surveying .ca 0 setup) 0x13 = true ∧ replies (.resetNode (req [32])) ended 0x12 = true
    ∧ runs (.resetNode (req [5])) (busy.setNode 4 ⟨.lost, some .goal, .ca, 3⟩) (fun t => decide (t.node 4 = readyNode .goal
        ∧ t.tag 7 = none ∧ t.tag 2 = none ∧ outgoing .ca t = [message .resetNode 5, message .wake 0, message .halt 0]
        ∧ (t.area 0).frames.map (·.payload) = [[0x79, 6, 0, 0x25, 5, 0, 0], [0x83, 0, 0, 5, 3, 2, 0], [0x53, 7, 0]])) = true
    ∧ runs (.resetNode (req [1])) setup (fun t => decide (outgoing .ca t = [message .resetNode 1, message .wake 0])) = true
    ∧ busy.chain.census = none
    ∧ runs (.linkReset (req [5])) sent (fun t => decide (t.tag 7 = none ∧ t.tag 2 = none
        ∧ outgoing .ca t = [message .halt 0, message .halt 0] ∧ (tail 2 t).headD 0 = 0x25)) = true
    ∧ runs (.linkReset (req [6])) sent (fun t => decide (t.tag 7 = some x ∧ outgoing .cb t = [])) = true
    ∧ runs (.linkReset (req [5])) (surveying .ca 0 setup) (fun t => decide (outgoing .ca t = [message .probe 2])) = true
    := by decide +kernel

theorem test_meets_ChainEndsSendInOrderAndDiscard :
    let s := driver.setSide .cb { onLine := some (message .halt 0), waiting := [message .wake 0] }
    (s.side .cb).waiting = [message .wake 0] ∧ (s.side .ca).waiting = []
    ∧ runs (.chainSendNext .cb) s (fun t => decide (t.side .cb = ⟨some (message .wake 0), []⟩)) = true
    ∧ runs (.chainSendNext .ca) s (fun t => decide (t.side .ca = ⟨none, []⟩)) = true
    ∧ (∀ bytes ∈ [[], [(0x03 : Byte), 5, 0, 0x11, 0, 0, 0], [0x03, 5, 0, 0x11, 0, 0, 0, 0], [0x03, 0, 0, 0x11, 0, 0, 0, 0xEC],
        [0x03, 33, 0, 0x11, 0, 0, 0, 0xCB], [0x03, 5, 0, 0x10, 0, 0, 0, 0xE8], [0x02, 5, 0, 3, 0, 0, 0, 0xF6],
        [0x05, 5, 0, 7, 0, 0, 0, 0xEF], [0x06, 5, 0, 0, 0, 0, 0, 0xF5]],
        keeps (.chainMessageDiscard .ca bytes) (scoring driver) = true) := by decide +kernel

/-! ### The match, the tally -/

theorem test_meets_PhaseRequestsMoveThePhase :
    let unpaired := setup.setStation 1 { setup.station 1 with partner := none }
      let goalless := scoring (setup.setNode 4 (readyNode .gate))
    let moved := fun (c : Request → Instr) (s : State) (phase : Phase) (timer : Nat) =>
      runs (c (req [])) s fun t => decide (t.control.phase = phase ∧ t.control.timer = timer)
    (driver.control.phase ≠ .setup ∧ replies (.stage (req [])) driver 0x11 = true)
    ∧ replies (.stage (req [])) (surveying .ca 0 unpaired) 0x13 = true ∧ replies (.stage (req [])) unpaired 0x16 = true
    ∧ replies (.stage (req [])) (setup.setStation 0 { setup.station 0 with partner := some 31 }) 0x16 = true
    ∧ replies (.stage (req [])) { setup with map := { setup.map with shared := ⟨5, 6⟩ } } 0x17 = true
    ∧ replies (.stage (req [])) { setup with map := { setup.map with partners := setup.map.partners.set 4 true } } 0x17 = true
    ∧ replies (.stage (req [])) goalless 0x19 = true ∧ replies (.stage (req (long 46))) (scoring setup) 0 = true
    ∧ moved .stage setup .staged 0 = true ∧ moved .unstage staged .setup 0 = true
    ∧ moved .start staged (.running .auto) 15000 = true ∧ moved .pause driver (.paused .driver .request) 20000 = true
    ∧ moved .resume paused (.running .driver) 20000 = true ∧ moved .abort driver (.ended .driver) 0 = true
    ∧ moved .abort (field (.paused .auto .silence)) (.ended .auto) 0 = true
    ∧ (∀ c ∈ [Instr.unstage, .start, .pause, .resume, .abort], replies (c (req [])) setup 0x11 = true)
    ∧ (∀ c ∈ [Instr.unstage, .start, .resume], replies (c (req [])) driver 0x11 = true)
    ∧ replies (.pause (req [])) paused 0x11 = true ∧ replies (.abort (req [])) ended 0x11 = true := by decide +kernel

theorem test_meets_EnteringAPhaseTellsItAndTakesEffect :
    let pilot : Frame := { body 2 [1, 2] with kind := .pilot }
    let full := driver.setArea 3 { driver.area 3 with frames := [pilot] }
    let held := holding 4 0 (driver.setStation 1 { driver.station 1 with state := .stale })
    (driver.control.phase.isDriven = true ∧ (Phase.paused .driver .request).isPaused = true ∧ Phase.staged.isEnded = false)
    ∧ ((enterPhase (.paused .driver .request) 5 full).area 3).frames = []
    ∧ ((enterPhase (.running .endgame) 5 full).area 3).frames = [pilot]
    ∧ tail 0 (enterPhase (.paused .driver .silence) 5 full) = [0x81, 0, 0, 6, 4, 0, 0, 0, 5, 2]
    ∧ outgoing .ca (enterPhase (.paused .driver .request) 5 full) = [message .halt 0]
    ∧ outgoing .cb (enterPhase (.running .driver) 5 (inRing paused)) = [message .resume 0]
    ∧ ((enterPhase (.running .endgame) 5 held).station 0).held = true
    ∧ ((enterPhase (.ended .driver) 0 held).claim 4) = ClaimEntry.free
    ∧ (enterPhase (.ended .driver) 0 (scoring driver)).tally.final = .running 400
    ∧ ((enterPhase (.running .auto) 9 { staged with credit := { staged.credit with balances := .fill 32 1 } }).balance 31) = 64
    ∧ tail 2 (enterPhase (.running .transit) 0x01020304 auto) = [1, 3, 1, 2, 3, 4, 0] := by decide +kernel

theorem test_meets_PhaseAndSilenceExpire :
    let still := { auto with control := { auto.control with timer := 0, transitLength := 0 } }
    (driver.control.phase.isRunning = true ∧ driver.control.timer ≠ 0 ∧ passThrough driver = driver)
    ∧ (still.control.timer = 0 ∧ (passThrough still).control.phase = .running .driver ∧ (passThrough still).control.timer = 90000)
    ∧ runs .phaseExpiry driver (fun t => decide (t.control.phase = .running .endgame ∧ t.control.timer = 30000)) = true
    ∧ runs .phaseExpiry endgame (fun t => decide (t.control.phase = .ended .endgame ∧ t.control.timer = 0)) = true
    ∧ runs .phaseExpiry auto (fun t => decide (t.control.phase = .running .transit ∧ t.control.timer = 3000)) = true
    ∧ keeps .phaseExpiry paused = true ∧ driver.control.silence = some 1000
    ∧ runs .silenceExpiry driver (fun t => decide (t.control.phase = .paused .driver .silence ∧ t.control.timer = 19000
        ∧ t.control.silence = none)) = true
    ∧ runs .silenceExpiry setup (fun t => decide (t.control.phase = .setup ∧ t.control.silence = none)) = true
    ∧ keeps .silenceExpiry { driver with control := { driver.control with silence := none } } = true := by decide +kernel

theorem test_meets_LimitsAndLengthsAreWrittenInTheirRanges :
    (∀ v ∈ [[(0 : Byte), 199], [0x13, 0x89]], replies (.staleLimit (req v)) driver 0x10 = true)
    ∧ runs (.staleLimit (req [0, 200])) driver (fun t => decide (t.stations.staleLimit = 200)) = true
    ∧ runs (.staleLimit (req [0x13, 0x88])) paused (fun t => decide (t.stations.staleLimit = 5000)) = true
    ∧ (∀ v ∈ [[(0 : Byte), 1], [0, 99], [0x13, 0x89]], replies (.silenceLimit (req v)) driver 0x10 = true)
    ∧ runs (.silenceLimit (req [0, 0])) driver (fun t => decide (t.control.silence = none ∧ t.control.silenceLimit = 0)) = true
    ∧ runs (.silenceLimit (req [0, 100])) driver (fun t => decide (t.control.silence = some 100)) = true
    ∧ runs (.silenceLimit (req [0x13, 0x88])) setup (fun t => decide (t.control.silence = some 5000)) = true
    ∧ (driver.control.phase.isBetween = false
        ∧ replies (.phaseTimes (req [0, 0, 0, 0, 0, 0, 3, 0xE8, 0, 0, 3, 0xE8])) driver 0x11 = true)
    ∧ (∀ args ∈ [[(0xEA : Byte), 0x61, 0, 0, 0, 0, 3, 0xE8, 0, 0, 0, 0], [0, 0, 0x3A, 0x99, 0, 0, 3, 0xE8, 0, 0, 0, 0],
        [0, 0, 0, 0, 0, 0, 3, 0xE7, 0, 0, 0, 0], [0, 0, 0, 0, 0, 4, 0x93, 0xE1, 0, 0, 0, 0], [0, 0, 0, 0, 0, 0, 3, 0xE8, 0, 0, 3, 0xE9]],
        replies (.phaseTimes (req args)) ended 0x10 = true)
    ∧ runs (.phaseTimes (req [0xEA, 0x60, 0x3A, 0x98, 0, 4, 0x93, 0xE0, 0, 4, 0x93, 0xE0])) setup (fun t => decide (
        t.control.autoLength = 60000 ∧ t.control.transitLength = 15000 ∧ t.control.driverLength = 300000
          ∧ t.control.endgameLength = 300000)) = true
    ∧ runs (.phaseTimes (req [0, 0, 0, 0, 0, 0, 3, 0xE8, 0, 0, 0, 0])) ended (fun t => decide (t.control.driverLength = 1000)) = true
    := by decide +kernel

theorem test_meets_GoalsAreConfiguredInSetup :
    let args : List Byte := [7, 32, 50, 50, 50, 3, 0x07, 0xD0]
    (driver.control.phase ≠ .setup ∧ replies (.goalConfig (req args)) driver 0x11 = true)
    ∧ (∀ p ∈ [(0, (8 : Byte)), (1, 33), (2, 51), (3, 51), (4, 51), (5, 4), (7, 0xD1), (6, 0)],
        replies (.goalConfig (req ((args.set p.1 p.2).set 7 (if p.1 = 6 then 99 else (args.set p.1 p.2).getD 7 0)))) setup 0x10 = true)
    ∧ runs (.goalConfig (req args)) setup (fun t => decide (t.goal 7 = ⟨some 31, 50, 50, 50, 3, 2000⟩)) = true
    ∧ runs (.goalConfig (req [0, 1, 0, 0, 0, 0, 0, 100])) setup (fun t => decide (t.goal 0 = ⟨some 0, 0, 0, 0, 0, 100⟩)) = true
    ∧ runs (.goalConfig (req [7, 0, 99, 0, 0, 0, 0, 0])) (scoring setup) (fun t => decide (t.goal 7 = Goal.unconfigured)) = true
    ∧ replies (.goalConfig (req [0, 5, 0, 0, 0, 0, 0, 100])) (scoring setup) 0x14 = true
    ∧ replies (.goalConfig (req [7, 5, 0, 0, 0, 0, 0, 100])) (scoring setup) 0 = true := by decide +kernel

theorem test_meets_RulingsAndPointsAreTakenAndTold :
    (∀ s ∈ [setup, staged], replies (.ruling (req [7, 1, 4, 9])) s 0x11 = true ∧ replies (.penalty (req [1, 0, 1])) s 0x11 = true
      ∧ replies (.award (req [1, 0, 1])) s 0x11 = true)
    ∧ (∀ args ∈ [[(8 : Byte), 1, 4, 9], [7, 4, 4, 9], [7, 1, 3, 9], [7, 1, 6, 9]], replies (.ruling (req args)) driver 0x10 = true)
    ∧ replies (.ruling (req [0, 0, 2, 9])) driver 0x12 = true
    ∧ runs (.ruling (req [7, 1, 4, 255])) (scoring driver) (fun t => decide (t.record 7 1 .driver = ⟨0, 0, .ruled, 255⟩
        ∧ (t.area 0).frames.map (·.payload) = [[0x86, 0, 0, 1, 2, 0xFD], [0x71, 7, 0]])) = true
    ∧ (∀ args ∈ [[(4 : Byte), 0, 1], [1, 0, 0], [1, 3, 0xE9]], replies (.penalty (req args)) ended 0x10 = true
        ∧ replies (.award (req args)) ended 0x10 = true)
    ∧ runs (.award (req [3, 3, 0xE8])) paused (fun t => decide (t.tally.bonus.get 3 = 1000 ∧ t.score 3 = 1000)) = true
    ∧ runs (.penalty (req [0, 0, 1])) driver (fun t => decide (t.tally.penalty.get 0 = 1 ∧ t.score 0 = 0)) = true
    ∧ runs (.award (req [0, 0, 2])) { driver with tally := { driver.tally with bonus := .fill 4 65534 } } (fun t => decide (
        t.tally.bonus.get 0 = 65535)) = true := by decide +kernel

theorem test_meets_ScoreIsTheAdjustedSumOfCreditedCounts :
    (⟨7, 5, .agreed, 9⟩ : TallyRecord).credited = 7 ∧ (⟨7, 5, .opened, 9⟩ : TallyRecord).credited = 5
    ∧ (⟨4, 5, .disputed, 9⟩ : TallyRecord).credited = 4 ∧ (⟨7, 5, .ruled, 9⟩ : TallyRecord).credited = 9
    ∧ (scored ⟨7, 5, .opened, 9⟩ driver).score 1 = 15
    ∧ ({ scored ⟨7, 5, .opened, 9⟩ driver with tally := { (scored ⟨7, 5, .opened, 9⟩ driver).tally with penalty := .fill 4 30 } } : State).score 1 = 0
    ∧ ({ scored ⟨7, 5, .opened, 9⟩ driver with tally := { (scored ⟨7, 5, .opened, 9⟩ driver).tally with bonus := .fill 4 65535 } } : State).score 1 = 65535
    := by decide +kernel

theorem test_meets_SettlesCompareOpenRecords :
    let settling := fun (x : TallyRecord) (s : State) => (scored x s).setSettle 7 (some 300)
    let final := fun (s : State) => { s with tally := { s.tally with final := .running 50 } }
    (settling ⟨7, 6, .opened, 0⟩ driver).tally.settle.get 7 = some 300
    ∧ runs (.settleExpiry 7) (settling ⟨7, 6, .opened, 0⟩ driver) (fun t => decide (t.record 7 1 .driver = ⟨7, 6, .agreed, 0⟩
        ∧ t.tally.settle.get 7 = none ∧ (t.area 0).frames = [] ∧ t.control.timer = 19700)) = true
    ∧ runs (.settleExpiry 7) (settling ⟨7, 5, .opened, 0⟩ paused) (fun t => decide (t.record 7 1 .driver = ⟨7, 5, .disputed, 0⟩
        ∧ tail 0 t = [0x84, 0, 0, 7, 1, 4, 7, 5])) = true
    ∧ keeps (.settleExpiry 0) (settling ⟨7, 5, .opened, 0⟩ driver) = true
    ∧ (final (settling ⟨7, 5, .opened, 0⟩ ended)).tally.final = .running 50
    ∧ runs .finalSettleExpiry (final (settling ⟨7, 5, .opened, 0⟩ ended)) (fun t => decide (t.tally.final = .done
        ∧ t.tally.settle.get 7 = none ∧ (t.area 0).frames.map (·.payload) = [[0x84, 0, 0, 7, 1, 4, 7, 5],
          [0x85, 0, 0, 0, 0, 0, 15, 0, 0, 0, 0, 1]])) = true
    ∧ keeps .finalSettleExpiry driver = true
    ∧ ((∀ g, (ended.goal g).position = none) ∧ (startFinalSettle ended).tally.final = .done)
    ∧ (((scoring ended).goal 7).position ≠ none ∧ (startFinalSettle (scoring ended)).tally.final = .running 400) := by decide +kernel

/-! ### What every step keeps, and what the bytes spell -/

/-- A step from the state after reset answers a next state: there, 1 ms passes and no timer runs. -/
theorem test_meets_a_step : runs .powerOn State.reset (fun _ => true) = true
    ∧ (match step State.reset with | .next t => decide (t = State.reset) | .fault _ | .refused _ => false) = true := by decide +kernel

theorem test_meets_EveryStepKeepsTheHaltedFlag : State.reset.haltFits ∧ paused.haltFits := by
  unfold State.haltFits; decide +kernel

theorem test_meets_EveryStepKeepsHeldRobotsAndPilotFrames :
    (State.reset.heldFits ∧ driver.heldFits) ∧ driver.pilotFits ∧ paused.pilotFits := by
  unfold State.heldFits State.pilotFits; decide +kernel

theorem test_meets_tally_counts :
    State.reset.tallyFits ∧ (scored ⟨255, 255, .ruled, 255⟩ driver).tallyFits := by
  constructor <;> intro g a p <;> cases p <;> revert g a <;> decide +kernel

theorem test_meets_EveryStepKeepsTheQueueAreas : State.reset.QueuesFit ∧ driver.QueuesFit := by
  constructor <;> constructor <;> decide +kernel

/-- In DRIVER robot 3 holds position 5, robot 1 waits there, and a bar of alliance 0 runs at position 8. -/
def contested : State := barredAt 7 0 500 (waitingAt 4 [0] (holding 4 2 driver))

theorem contested_waits : ∀ q n, (contested.claim q).waits n = true → q = 4 ∧ n = 0 := by decide +kernel

theorem test_meets_EveryStepKeepsTheClaimTable : contested.ClaimsFit where
  lists := by decide +kernel
  linked := by decide +kernel
  once p q n h k := (contested_waits p n h).1.trans (contested_waits q n k).1.symm
  distinct := by decide +kernel
  apart := by decide +kernel
  held := by decide +kernel
  heldWaiting q n h := by rw [(contested_waits q n h).2]; decide +kernel
  barred := by decide +kernel
  idle := by decide +kernel
  partners := by decide +kernel

theorem reset_counts : State.reset.CountsFit where
  discards := by
    intro p
    rcases p with _ | k
    · decide +kernel
    · revert k; decide +kernel
  credit := by unfold State.creditFits; decide +kernel
  tally := test_meets_tally_counts.1
  nodes := by unfold State.nodesFit; decide +kernel
  hits := by decide +kernel
  drops := by decide +kernel
  points := by decide +kernel
  accumulator := by decide +kernel
  active := by decide +kernel
  peaks := by decide +kernel
  partners := by decide +kernel
  waiters := by decide +kernel
  claims := by decide +kernel

theorem test_meets_EveryStepKeepsEveryCountInRange :
    State.reset.QueuesFit ∧ State.reset.ClaimsFit ∧ State.reset.CountsFit :=
  ⟨test_meets_EveryStepKeepsTheQueueAreas.1, claimsFit_of_free (by decide +kernel), reset_counts⟩

theorem test_meets_BytesSpellTheirCommands :
    let f : Frame := { body 1 [5] with kind := .release }
    f.acceptable = true ∧ (body 63 (long 48)).acceptable = true ∧ parseFrame f.wire = some f
    ∧ (Instr.release (.rl 0) (body 1 [5])).wellFormed = true
    ∧ (Instr.release (.rl 0) (body 1 [5])).delivery? = some (.rl 0, f.wire)
    ∧ (Instr.sense .cb 32 0x81).wellFormed = true ∧ (Instr.sense .cb 32 0x81).message? = some (.cb, [3, 32, 0, 0x81, 0, 0, 0, 0x5C])
    ∧ chainCommand .cb [3, 32, 0, 0x81, 0, 0, 0, 0x5C] = .sense .cb 32 0x81
    ∧ runs (.frameDiscard (.rl 0) [0x71, 1, 0, 4, 1, 0, 5, 0x25, 0x0A]) driver (fun t => decide ((tail 2 t).headD 0 = 0x17)) = true
    := by decide +kernel

/-- Each command of the table that has no bits: no word spells it, and a word put in front of the queue changes nothing. -/
theorem test_no_word_spells_a_command :
    decodeTableWord 16 0x1234 = none ∧ State.reset.withFetchWord 16 0x1234 = State.reset := by decide +kernel

end Sys2Proof.Tests
end

section
/-! SUPPORT. Commands by what they do. A request is handed to the owner of its code; and whatever the command, the next
state is one of the effects listed in Effect, so that an invariant is proved effect by effect and not command by command. -/

namespace Sys2Proof.Machine

/-! ### Requests by their code -/

/-- What the owner of a request code makes of a request (R188, 11_management_requests.md). FULL_RESET is not answered and
has no owner; its code stands among the unknown ones here and is excluded where this is used. -/
def ownerOf (code : Nat) (r : Request) : State → Owned :=
  match code with
  | 0x01 => ownReadStatus
  | 0x02 => fun s => done s
  | 0x04 => ownFieldReset
  | 0x05 => ownLinkReset r
  | 0x10 => ownEnrol r
  | 0x11 => ownUnenrol r
  | 0x12 => ownDisable r
  | 0x13 => ownEnable r
  | 0x14 => ownEject r
  | 0x15 => ownReadStation r
  | 0x16 => ownStaleLimit r
  | 0x20 => ownWriteRule r
  | 0x21 => ownReadRule r
  | 0x22 => ownRuleCount r
  | 0x23 => ownKindDefault r
  | 0x30 => ownMapWindow r
  | 0x31 => ownHide r
  | 0x32 => ownPartner r
  | 0x33 => ownProfile r
  | 0x34 => ownReadMap r
  | 0x38 => ownReadClaim r
  | 0x3C => ownCreditParams r
  | 0x3D => ownReadCredit r
  | 0x40 => ownArea r
  | 0x41 => ownJoinArea r
  | 0x42 => ownClearArea r
  | 0x43 => ownReadArea r
  | 0x50 => ownChainConfig r
  | 0x51 => ownCensus r
  | 0x52 => ownElementDirect r
  | 0x53 => ownResetNode r
  | 0x54 => ownReadNode r
  | 0x60 => ownPhaseTimes r
  | 0x61 => ownStage
  | 0x62 => ownUnstage
  | 0x63 => ownStart
  | 0x64 => ownPause
  | 0x65 => ownResume
  | 0x66 => ownAbort
  | 0x67 => ownSilenceLimit r
  | 0x70 => ownGoalConfig r
  | 0x71 => ownRuling r
  | 0x72 => ownPoints r addPenalty
  | 0x73 => ownPoints r addBonus
  | 0x74 => ownReadScore r
  | _ => refuse .unknownRequest

/-- Every request but FULL_RESET is taken for the owner of its code. -/
theorem takeCode_eq {code : Nat} (h : code ≠ 0x03) (r : Request) (s : State) :
    takeCode code r s = takeRequest code r (ownerOf code r) s := by
  unfold takeCode
  split
  case h_3 => exact absurd rfl h
  case h_47 => simp_all [answerUnknown, ownerOf]
  all_goals rfl

/-- A command that carries a request is the request of its code. -/
theorem exec_of_request {i : Instr} {code : Nat} {r : Request} (h : i.request? = some (code, r)) (s : State) :
    exec i s = takeCode code r s := by
  cases i <;> simp only [Instr.request?, Option.some.injEq, Prod.mk.injEq, reduceCtorEq] at h <;>
    obtain ⟨rfl, rfl⟩ := h <;> rfl

theorem ownerOf_honest (code : Nat) (r : Request) (s : State) : (ownerOf code r s).Honest s := by
  unfold ownerOf
  split <;>
    simp only [ownReadStatus_honest, ownFieldReset_honest, ownLinkReset_honest, ownEnrol_honest, ownUnenrol_honest,
      ownDisable_honest, ownEnable_honest, ownEject_honest, ownReadStation_honest, ownStaleLimit_honest,
      ownWriteRule_honest, ownReadRule_honest, ownRuleCount_honest, ownKindDefault_honest, ownMapWindow_honest,
      ownHide_honest, ownPartner_honest, ownProfile_honest, ownReadMap_honest, ownReadClaim_honest,
      ownCreditParams_honest, ownReadCredit_honest, ownArea_honest, ownJoinArea_honest, ownClearArea_honest,
      ownReadArea_honest, ownChainConfig_honest, ownCensus_honest, ownElementDirect_honest, ownResetNode_honest,
      ownReadNode_honest, ownPhaseTimes_honest, ownStage_honest, ownUnstage_honest, ownStart_honest, ownPause_honest,
      ownResume_honest, ownAbort_honest, ownSilenceLimit_honest, ownGoalConfig_honest, ownRuling_honest,
      ownPoints_honest, ownReadScore_honest, honest_done, honest_refuse]

@[simp] theorem ownerOf_pending (code : Nat) (r : Request) (s : State) :
    (ownerOf code r s).state.pending = s.pending := by
  unfold ownerOf
  split <;> simp

/-! ### The effects -/

/-- What a command can do to the state: one constructor for each effect, with the time that an expiry lets pass. -/
inductive Effect (s : State) : State → Prop where
  | kept : Effect s s
  | restarted (cause : StartCause) : Effect s (restart cause s)
  | discarded (p : Port) : Effect s (discardArrival p s)
  | station (k : RadioPort) (f : Frame) : Effect s (stationFrame k f (receiveIdle (.rl k) s))
  | short : Effect s (mgmtArrives s)
  | refused (code : Nat) (r : Request) (x : Result) : Effect s (reply code r (refuse x (mgmtArrives s)))
  | owned (code : Nat) (r : Request) : Effect s (reply code r (ownerOf code r (mgmtArrives s)))
  | framer (p : Port) (x : PortState) (h : x.discards = (s.port p).discards) : Effect s (s.setPort p x)
  | took (p : Port) : Effect s (takeFrame p s)
  | replied (q : Position) (tag status : Byte) (value : BitVec 16) : Effect s (takeReply q tag status value s)
  | sensed (q : Position) (code : Byte) : Effect s (takeSense q code s)
  | probed (e : ChainEnd) (q : Position) (kind : NodeKind) : Effect s (takeProbeReply e q kind s)
  | sentNext (e : ChainEnd) : Effect s (s.setSide e (s.side e).advance)
  | dequeued : Effect s (dequeueOne s)
  | sentPending : Effect s (sendPending s)
  | quiet (n : StationId) (k : Nat) : Effect s (quietExpired n (elapse k s))
  | hold (q : Position) (k : Nat) : Effect s (holdExpired q (elapse k s))
  | bar (q : Position) (k : Nat) : Effect s (barExpired q (elapse k s))
  | phase (k : Nat) : Effect s (passThrough (elapse k s))
  | silence (k : Nat) : Effect s (silenceExpired (elapse k s))
  | tick (k : Nat) : Effect s (tickFalls (elapse k s))
  | timeout (t : TagId) (k : Nat) : Effect s (replyTimedOut t (elapse k s))
  | unanswered (c : Census) (k : Nat) : Effect s (continueCensus c (elapse k s))
  | settled (g : GoalSlot) (k : Nat) : Effect s (settleExpired g (elapse k s))
  | final (k : Nat) : Effect s (endFinalSettle (elapse k s))

/-- The outcome is a next state that an effect leads to. -/
def Answers (s : State) (o : Step) : Prop := ∃ t, o = .next t ∧ Effect s t

variable {s : State}

theorem Effect.answers {t : State} (h : Effect s t) : Answers s (.next t) := ⟨t, rfl, h⟩

theorem takeCode_answers (code : Nat) (r : Request) (s : State) : Answers s (takeCode code r s) := by
  have long : Answers s (.next (countDiscard .ml (receiveIdle .ml s))) := (Effect.discarded .ml).answers
  by_cases h : code = 0x03
  · subst h
    change Answers s (execFullReset r s)
    unfold execFullReset
    split
    · exact long
    · exact (Effect.restarted .fullReset).answers
  · rw [takeCode_eq h]
    unfold takeRequest
    split
    · exact long
    · split
      · exact (Effect.refused code r .badArgument).answers
      · exact (Effect.owned code r).answers

theorem takePayload_answers (sequence : Byte) (payload : List Byte) (s : State) :
    Answers s (takePayload sequence payload s) := by
  unfold takePayload
  split
  · exact takeCode_answers _ _ s
  · exact Effect.short.answers

theorem arrival_answers (p : Port) (f : Frame) (s : State) : Answers s (arrival p f s) := by
  unfold arrival
  split
  · split
    · exact (Effect.station _ f).answers
    · exact takePayload_answers _ _ s
  · exact (Effect.discarded p).answers

theorem execReply_answers (e : ChainEnd) (position tag status : Byte) (value : BitVec 16) (s : State) :
    Answers s (execReply e position tag status value s) := by
  unfold execReply
  split
  · exact Effect.kept.answers
  · split
    · exact Effect.kept.answers
    · exact (Effect.replied _ tag status value).answers

theorem execProbeReply_answers (e : ChainEnd) (position nodeKind : Byte) (s : State) :
    Answers s (execProbeReply e position nodeKind s) := by
  unfold execProbeReply
  split
  · exact (Effect.probed e _ _).answers
  · exact Effect.kept.answers

theorem execSense_answers (e : ChainEnd) (position code : Byte) (s : State) :
    Answers s (execSense e position code s) := by
  unfold execSense
  split
  · exact Effect.kept.answers
  · split
    · exact Effect.kept.answers
    · exact (Effect.sensed _ code).answers

theorem execChainMessageDiscard_answers (e : ChainEnd) (bytes : List Byte) (s : State) :
    Answers s (execChainMessageDiscard e bytes s) := by
  unfold execChainMessageDiscard
  split
  · exact execReply_answers _ _ _ _ _ s
  · exact execProbeReply_answers _ _ _ s
  · exact execSense_answers _ _ _ s
  · exact Effect.kept.answers

theorem execFrameDiscard_answers (p : Port) (bytes : List Byte) (s : State) :
    Answers s (execFrameDiscard p bytes s) := by
  unfold execFrameDiscard
  split
  · exact (Effect.discarded p).answers
  · exact arrival_answers p _ s

theorem execReceiveStart_answers (p : Port) (bytes : List Byte) (s : State) :
    Answers s (execReceiveStart p bytes s) := by
  unfold execReceiveStart
  split
  · exact (Effect.framer p { s.port p with receive := .receiving (bytes.take Config.keptBytes) } rfl).answers
  · exact Effect.kept.answers

theorem execTransmitComplete_answers (p : Port) (transmission : Nat) (s : State) :
    Answers s (execTransmitComplete p transmission s) := by
  unfold execTransmitComplete
  split
  · exact (Effect.framer p { s.port p with transmitter := none } rfl).answers
  · exact Effect.kept.answers

/-- An expiry that does nothing while its timer is stopped, and else lets the rest of it pass. -/
theorem answers_of_timer {o : Option Nat} {f : Nat → State} (h : ∀ k, Effect s (f k)) :
    Answers s (match o with | none => .next s | some k => .next (f k)) := by
  cases o with
  | none => exact Effect.kept.answers
  | some k => exact (h k).answers

/-- Every command answers a next state, by one of the effects. -/
theorem exec_answers (c : Instr) (s : State) : Answers s (exec c s) := by
  cases hr : c.request? with
  | some x => rw [exec_of_request hr]; exact takeCode_answers _ _ s
  | none =>
    cases c with
    | powerOn => exact (Effect.restarted .powerOn).answers
    | receiveStart p bytes => exact execReceiveStart_answers p bytes s
    | frameDiscard p bytes => exact execFrameDiscard_answers p bytes s
    | portGateDrop p f => exact arrival_answers p f s
    | join p f | beacon p f | pilot p f | telem p f | element p f | claim p f | release p f =>
      exact arrival_answers p _ s
    | mgmtShort sequence payload => exact takePayload_answers sequence payload s
    | transmitterTake p => exact (Effect.took p).answers
    | transmitComplete p n => exact execTransmitComplete_answers p n s
    | lineDown p => exact (Effect.framer p { s.port p with line := .down, receive := .idle } rfl).answers
    | lineUp p => exact (Effect.framer p { s.port p with line := .up } rfl).answers
    | reply e position tag status value => exact execReply_answers e position tag status value s
    | probeReply e position kind => exact execProbeReply_answers e position kind s
    | sense e position code => exact execSense_answers e position code s
    | chainMessageDiscard e bytes => exact execChainMessageDiscard_answers e bytes s
    | chainSendNext e => exact (Effect.sentNext e).answers
    | dequeue => exact Effect.dequeued.answers
    | pendingSend => exact Effect.sentPending.answers
    | quietExpiry n => exact answers_of_timer (.quiet n)
    | holdExpiry q =>
      change Answers s (execHoldExpiry q s)
      unfold execHoldExpiry
      split
      · exact (Effect.hold q _).answers
      · exact Effect.kept.answers
    | barExpiry q =>
      change Answers s (execBarExpiry q s)
      unfold execBarExpiry
      split
      · exact (Effect.bar q _).answers
      · exact Effect.kept.answers
    | phaseExpiry =>
      change Answers s (execPhaseExpiry s)
      unfold execPhaseExpiry
      split
      · exact (Effect.phase _).answers
      · exact Effect.kept.answers
    | silenceExpiry => exact answers_of_timer .silence
    | creditTick =>
      change Answers s (execCreditTick s)
      unfold execCreditTick
      split
      · exact (Effect.tick _).answers
      · exact Effect.kept.answers
    | replyTimeout t =>
      change Answers s (execReplyTimeout t s)
      unfold execReplyTimeout
      split
      · exact Effect.kept.answers
      · exact (Effect.timeout t _).answers
    | probeTimeout =>
      change Answers s (execProbeTimeout s)
      unfold execProbeTimeout
      split
      · exact Effect.kept.answers
      · exact (Effect.unanswered _ _).answers
    | settleExpiry g => exact answers_of_timer (.settled g)
    | finalSettleExpiry =>
      change Answers s (execFinalSettleExpiry s)
      unfold execFinalSettleExpiry
      split
      · exact (Effect.final _).answers
      all_goals exact Effect.kept.answers
    | _ => exact absurd hr (by simp [Instr.request?])

theorem effect_of_exec {c : Instr} {t : State} (h : exec c s = .next t) : Effect s t := by
  obtain ⟨u, hu, e⟩ := exec_answers c s
  rw [hu] at h
  injection h with h
  exact h ▸ e

/-- No effect reads or writes the queue of commands that wait. -/
theorem Effect.pending {t : State} (h : Effect s t) : t.pending = s.pending := by
  cases h <;> simp [restart, powerOnBlocks]

/-- A property that does not speak of the queue and that time and every effect keep is kept by every step. -/
theorem step_keeps {P : State → Prop} (queue : ∀ s l, P s → P { s with pending := l })
    (time : ∀ s, P s → P (elapse 1 s)) (effect : ∀ s t, P s → Effect s t → P t) {s t : State} (h : P s)
    (hs : step s = .next t) : P t := by
  unfold step at hs
  split at hs
  · next c rest _ => exact effect _ t (queue s rest h) (effect_of_exec hs)
  · unfold ownStep at hs
    split at hs
    · exact effect s t h (effect_of_exec hs)
    · injection hs with hs
      exact hs ▸ time s h

/-! ### The statements -/

/-- Settles O3: every command comes to one of the effects, and none of them touches the queue. -/
theorem everyCommandAnswersANextState : Obligations.EveryCommandAnswersANextState := by
  intro c s
  obtain ⟨t, ht, effect⟩ := exec_answers c s
  exact ⟨t, ht, effect.pending⟩

/-- A request that is not too long is replied to, by its owner's answer or by BAD_ARGUMENT where bytes are missing. -/
theorem exec_request_replied {i : Instr} {code : Nat} {r : Request} (s : State) (h : i.request? = some (code, r))
    (answered : code ≠ 0x03) (fits : r.args.length ≤ 46) :
    ∃ o : Owned, exec i s = .next (reply code r o) ∧ o.Honest (mgmtArrives s) := by
  rw [exec_of_request h, takeCode_eq answered]
  rcases Nat.lt_or_ge r.args.length ((argumentLength code).getD 0) with short | enough
  · exact ⟨_, takeRequest_short fits short, honest_refuse _ _⟩
  · exact ⟨_, takeRequest_taken fits enough, ownerOf_honest code r _⟩

/-- Settles O8: the reply carries an honest answer, which for a result other than OK and ACCEPTED has changed nothing. -/
theorem everyRequestIsAnsweredOnce : Obligations.EveryRequestIsAnsweredOnce := by
  intro i code r s hi hc hl
  obtain ⟨o, taken, honest⟩ := exec_request_replied s hi hc hl
  refine ⟨o, taken, fun notOk notAccepted => ?_, rfl⟩
  rcases honest with ok | accepted | ⟨state, data⟩
  · exact absurd ok notOk
  · exact absurd accepted notAccepted
  · exact ⟨data, state⟩

end Sys2Proof.Machine
end

section
/-! SUPPORT. Every count and total in its range: an invariant that the operations keep one by one, and that with the claim
table and the areas as they are kept is CountsFit. -/

namespace Sys2Proof.Machine

/-! ### The claims that a station has or waits for -/

/-- What entry e counts for station n: 1 for holding it, and 1 for each place in its waiter list. -/
def ClaimEntry.load (e : ClaimEntry) (n : StationId) : Nat :=
  (e.heldBy n).toNat + e.waiters.countP fun w => decide (w.station = n)

/-- What all entries count for station n. A hand-over turns a wait into a hold and leaves it as it was, so that it stays
at most 2 where the number of held entries alone would not be seen to. -/
def claimLoad (t : Table ClaimEntry 32) (n : StationId) : Nat := ∑ q, (t.get q).load n

theorem Table.count_eq_sum {α : Type} {k : Nat} (t : Table α k) (p : α → Bool) :
    t.count p = ∑ i, (p (t.get i)).toNat := by
  have count : ∀ l : List α, l.countP p = (l.map fun a => (p a).toNat).sum := fun l => by
    induction l with
    | nil => rfl
    | cons a l ih => cases h : p a <;> simp [h, ih, Nat.add_comm]
  rw [Table.count, count, Table.items_eq_map_get, List.map_map, Fin.sum_univ_def]
  rfl

/-- The load is the entries held and the places waited in. -/
theorem claimLoad_eq (s : State) (n : StationId) :
    claimLoad s.claims n = s.claimCount n + ∑ q, (s.claim q).waiters.countP fun w => decide (w.station = n) := by
  rw [State.claimCount, Table.count_eq_sum, ← Finset.sum_add_distrib]
  rfl

theorem claimCount_le_claimLoad (s : State) (n : StationId) : s.claimCount n ≤ claimLoad s.claims n := by
  rw [claimLoad_eq]
  exact Nat.le_add_right _ _

theorem countP_eq_zero_of_waits {e : ClaimEntry} {n : StationId} (h : e.waits n = false) :
    (e.waiters.countP fun w => decide (w.station = n)) = 0 := by
  rw [List.countP_eq_zero]
  simpa [ClaimEntry.waits] using h

/-- A station that waits nowhere has the load of its entries alone. -/
theorem claimLoad_of_waitsAnywhere {s : State} {n : StationId} (h : s.waitsAnywhere n = false) :
    claimLoad s.claims n = s.claimCount n := by
  rw [claimLoad_eq, Finset.sum_eq_zero, Nat.add_zero]
  intro q _
  apply countP_eq_zero_of_waits
  simp only [State.waitsAnywhere, List.any_eq_false, Bool.not_eq_true] at h
  exact h _ (Table.mem_items.mpr ⟨q, rfl⟩)

theorem countP_le_one_of_nodup {l : List Waiter} (h : (l.map Waiter.station).Nodup) (n : StationId) :
    (l.countP fun w => decide (w.station = n)) ≤ 1 := by
  have count : (l.countP fun w => decide (w.station = n)) = (l.map Waiter.station).count n := by
    simp only [List.count, List.countP_map]
    exact List.countP_congr fun w _ => by simp
  rw [count]
  exact List.nodup_iff_count_le_one.mp h n

/-- Where the claim table is as its rules keep it no robot has more than 2 claims, waits included (R75, R77). -/
theorem State.ClaimsFit.claimLoad_le {s : State} (h : s.ClaimsFit) (n : StationId) :
    claimLoad s.claims n ≤ Config.maxClaims := by
  cases waits : s.waitsAnywhere n with
  | false => rw [claimLoad_of_waitsAnywhere waits]; exact h.held n
  | true =>
    simp only [State.waitsAnywhere, List.any_eq_true] at waits
    obtain ⟨e, he, hn⟩ := waits
    obtain ⟨q, rfl⟩ := Table.mem_items.mp he
    have one : (∑ p, (s.claim p).waiters.countP fun w => decide (w.station = n)) ≤ 1 := by
      rw [Finset.sum_eq_single q]
      · exact countP_le_one_of_nodup (h.distinct q) n
      · intro p _ hp
        apply countP_eq_zero_of_waits
        by_contra c
        exact hp (h.once p q n (by simpa using c) hn)
      · intro c; exact absurd (Finset.mem_univ q) c
    have held := h.heldWaiting q n hn
    rw [claimLoad_eq]
    omega

/-- The writing of one entry moves the load by what the entry counted and counts. -/
theorem claimLoad_set (t : Table ClaimEntry 32) (q : Position) (x : ClaimEntry) (n : StationId) :
    claimLoad (t.set q x) n + (t.get q).load n = claimLoad t n + x.load n := by
  have others : ∑ p ∈ Finset.univ.erase q, ((t.set q x).get p).load n = ∑ p ∈ Finset.univ.erase q, (t.get p).load n :=
    Finset.sum_congr rfl fun p hp => by rw [Table.get_set_ne _ (Finset.ne_of_mem_erase hp)]
  have split : ∀ u : Table ClaimEntry 32,
      claimLoad u n = (u.get q).load n + ∑ p ∈ Finset.univ.erase q, (u.get p).load n := fun u =>
    (Finset.add_sum_erase Finset.univ (fun p => (u.get p).load n) (Finset.mem_univ q)).symm
  rw [split t, split (t.set q x), others, Table.get_set_self]
  omega

/-- An entry with its holder gone counts no more than before. -/
theorem ClaimEntry.load_release (e : ClaimEntry) (bar : Option Bar) (n : StationId) :
    ({ e with hold := none, bar } : ClaimEntry).load n ≤ e.load n := by
  simp [load, heldBy]

/-- The waiter that an entry is handed over to holds it instead of waiting for it. -/
theorem ClaimEntry.load_handOver {e : ClaimEntry} {p : Waiter → Bool} {w : Waiter} (h : e.waiters.find? p = some w)
    (remaining : Nat) (n : StationId) :
    ({ e with hold := some { holder := w.station, remaining }, waiters := e.waiters.eraseP p } : ClaimEntry).load n
      ≤ e.load n := by
  obtain ⟨hp, l, r, hw, hl⟩ := List.find?_eq_some_iff_append.mp h
  have erased : e.waiters.eraseP p = l ++ r := by
    rw [hw, List.eraseP_append_right _ (fun b hb => by simpa using hl b hb), List.eraseP_cons_of_pos hp]
  simp only [load, heldBy, erased, Option.any_some]
  rw [hw]
  simp only [List.countP_append, List.countP_cons]
  by_cases c : w.station = n
  · simp [c]; omega
  · simp [c]

/-- An entry with one more waiter counts 1 more for that station. -/
theorem ClaimEntry.load_append (e : ClaimEntry) (w : Waiter) (n : StationId) :
    ({ e with waiters := e.waiters ++ [w] } : ClaimEntry).load n = e.load n + if w.station = n then 1 else 0 := by
  simp only [load, heldBy, List.countP_append, List.countP_singleton, decide_eq_true_eq]
  omega

/-- A FREE entry that is granted counts 1 more for its holder. -/
theorem ClaimEntry.load_grant {e : ClaimEntry} (h : e.hold = none) (x : Hold) (n : StationId) :
    ({ e with hold := some x } : ClaimEntry).load n = e.load n + if x.holder = n then 1 else 0 := by
  simp only [load, heldBy, h, Option.any_some, Option.any_none, Bool.toNat_false]
  by_cases c : x.holder = n
  · simp [c]; omega
  · simp [c]

/-! ### The invariant -/

/-- An area's counts in their ranges (R116, R121). -/
structure Area.Bounded (x : Area) : Prop where
  memory : x.stop ≤ 256
  room : x.frames.length ≤ x.capacity
  peak : x.peak ≤ 256
  drops : x.drops ≤ Config.maxCount

/-- A node record's misses in their range, and none on a record never found (R137). -/
def Node.Bounded (x : Node) : Prop := x.misses ≤ Config.maxMisses ∧ (x.state = .absent → x.misses = 0)

/-- The claim table's lists and loads in their ranges (R75, R77). -/
structure ClaimsBounded (t : Table ClaimEntry 32) : Prop where
  lists : ∀ q, (t.get q).waiters.length ≤ Config.maxWaiters
  loads : ∀ n, claimLoad t n ≤ Config.maxClaims

/-- Every count and total in its range but for the tally's records, block by block: what every operation keeps. -/
structure Bounded (s : State) : Prop where
  ml : s.framers.ml.discards ≤ Config.maxCount
  radio : ∀ k, (s.framers.rl.get k).discards ≤ Config.maxCount
  areas : ∀ a, (s.areas.get a).Bounded
  claims : ClaimsBounded s.claims
  credit : ∀ n, s.credit.balances.get n ≤ s.credit.cap
  nodes : ∀ q, (s.chain.nodes.get q).Bounded
  hits : ∀ i, (s.classifier.rules.get i).hits ≤ Config.maxCount
  active : s.classifier.active ≤ 48
  partners : s.map.partners.count id ≤ Config.maxPartners
  bonus : ∀ a, s.tally.bonus.get a ≤ Config.maxCount
  penalty : ∀ a, s.tally.penalty.get a ≤ Config.maxCount
  accumulator : s.control.accumulator ≤ Config.tickLength

theorem Bounded.of_fits {s : State} (queues : s.QueuesFit) (claims : s.ClaimsFit) (counts : s.CountsFit) : Bounded s where
  ml := counts.discards .ml
  radio k := counts.discards (.rl k)
  areas a := ⟨(queues.inMemory a).2, queues.room a, counts.peaks a, counts.drops a⟩
  claims := ⟨counts.waiters, claims.claimLoad_le⟩
  credit := counts.credit
  nodes := counts.nodes
  hits := counts.hits
  active := counts.active
  partners := counts.partners
  bonus a := (counts.points a).1
  penalty a := (counts.points a).2
  accumulator := counts.accumulator

theorem Bounded.countsFit {s : State} (h : Bounded s) (tally : s.tallyFits) : s.CountsFit where
  discards p := by
    cases p with
    | ml => exact h.ml
    | rl k => exact h.radio k
  credit := h.credit
  tally := tally
  nodes := h.nodes
  hits := h.hits
  drops a := (h.areas a).drops
  points a := ⟨h.bonus a, h.penalty a⟩
  accumulator := h.accumulator
  active := h.active
  peaks a := (h.areas a).peak
  partners := h.partners
  waiters := h.claims.lists
  claims n := (claimCount_le_claimLoad s n).trans (h.claims.loads n)

end Sys2Proof.Machine
end

section
/-! SUPPORT. The operations keep every count in its range: first the writes of one record, then the shared operations in
the order in which they are defined, then the owners of requests and the effects. -/

namespace Sys2Proof.Machine

namespace Bounded

variable {s t : State}

/-! ### Writes -/

/-- Writes of parts that hold no count. -/
theorem congr (h : Bounded s) (framers : t.framers = s.framers := by simp) (areas : t.areas = s.areas := by simp)
    (claims : t.claims = s.claims := by simp) (credit : t.credit = s.credit := by simp)
    (nodes : t.chain.nodes = s.chain.nodes := by simp) (classifier : t.classifier = s.classifier := by simp)
    (map : t.map = s.map := by simp) (bonus : t.tally.bonus = s.tally.bonus := by simp)
    (penalty : t.tally.penalty = s.tally.penalty := by simp)
    (accumulator : t.control.accumulator = s.control.accumulator := by simp) : Bounded t where
  ml := framers ▸ h.ml
  radio := framers ▸ h.radio
  areas := areas ▸ h.areas
  claims := claims ▸ h.claims
  credit := credit ▸ h.credit
  nodes := nodes ▸ h.nodes
  hits := classifier ▸ h.hits
  active := classifier ▸ h.active
  partners := map ▸ h.partners
  bonus := bonus ▸ h.bonus
  penalty := penalty ▸ h.penalty
  accumulator := accumulator ▸ h.accumulator

theorem foldl {α : Type} {f : State → α → State} (hf : ∀ s x, Bounded s → Bounded (f s x)) (l : List α) (h : Bounded s) :
    Bounded (l.foldl f s) := by
  induction l generalizing s with
  | nil => exact h
  | cons x l ih => exact ih (hf s x h)

/-- A framer is written with its discard count as it was. -/
theorem setPort (h : Bounded s) {p : Port} {x : PortState} (same : x.discards = (s.port p).discards) :
    Bounded (s.setPort p x) := by
  cases p with
  | ml => exact { h with ml := same ▸ h.ml }
  | rl k =>
    refine { h with radio := fun j => ?_ }
    simp only [State.setPort, Table.get_set]
    split
    · exact same ▸ h.radio k
    · exact h.radio j

theorem countDiscard (h : Bounded s) (p : Port) : Bounded (countDiscard p s) := by
  cases p with
  | ml => exact { h with ml := Nat.min_le_left _ _ }
  | rl k =>
    refine { h with radio := fun j => ?_ }
    simp only [Machine.countDiscard, State.setPort, Table.get_set]
    split
    · exact Nat.min_le_left _ _
    · exact h.radio j

/-- Areas that are kept, with drop counts in their range, keep their other counts in range. -/
theorem areas_of_kept (h : Bounded s) (k : AreasKept s t) (drops : ∀ a, (t.area a).drops ≤ Config.maxCount) (a : AreaId) :
    (t.areas.get a).Bounded := by
  have x := h.areas a
  obtain ⟨start, stop, -⟩ := k.layout a
  have capacity : (s.area a).capacity ≤ 256 := (Nat.sub_le _ _).trans x.memory
  exact
    { memory := stop.trans_le x.memory
      room := k.room a x.room
      peak := (k.highest a x.room).trans (Nat.max_le.mpr ⟨x.peak, capacity⟩)
      drops := drops a }

/-- Offers keep every count in its range (R121). -/
theorem out (h : Bounded s) (o : OutputOnly s t) : Bounded t where
  ml := o.ml ▸ h.ml
  radio k := o.counted k (h.radio k)
  areas := h.areas_of_kept (.out o) fun a => o.drops a (h.areas a).drops
  claims := o.claims ▸ h.claims
  credit := o.credit ▸ h.credit
  nodes := o.chain ▸ h.nodes
  hits := o.classifier ▸ h.hits
  active := o.classifier ▸ h.active
  partners := o.map ▸ h.partners
  bonus := o.tally ▸ h.bonus
  penalty := o.tally ▸ h.penalty
  accumulator := o.control ▸ h.accumulator

/-- One area is replaced, with its drop count in range, and the areas are kept. -/
theorem setArea (h : Bounded s) {a : AreaId} {x : Area} (k : AreasKept s (s.setArea a x))
    (drops : x.drops ≤ Config.maxCount) : Bounded (s.setArea a x) :=
  { h with
    areas := h.areas_of_kept k fun b => by
      rw [State.area_setArea]
      split
      · exact drops
      · exact (h.areas b).drops }

/-- Every area is replaced by one with the same drop count, and the areas are kept. -/
theorem mapAreas (h : Bounded s) {f : Area → Area} (k : AreasKept s { s with areas := s.areas.map f })
    (drops : ∀ x, (f x).drops = x.drops) : Bounded { s with areas := s.areas.map f } :=
  { h with
    areas := h.areas_of_kept k fun a => by
      simp only [State.area, Table.get_map, drops]
      exact (h.areas a).drops }

/-- An entry is written that counts no more for any station than before, with no more waiters. -/
theorem setClaim (h : Bounded s) {q : Position} {x : ClaimEntry} (list : x.waiters.length ≤ (s.claim q).waiters.length)
    (load : ∀ n, x.load n ≤ (s.claim q).load n) : Bounded (s.setClaim q x) := by
  refine { h with claims := ⟨fun p => ?_, fun n => ?_⟩ }
  · simp only [State.setClaim, Table.get_set]
    split
    · exact list.trans (h.claims.lists q)
    · exact h.claims.lists p
  · have moved : _ = _ + x.load n := claimLoad_set s.claims q x n
    have before := h.claims.loads n
    have less : x.load n ≤ (s.claims.get q).load n := load n
    simp only [State.setClaim]
    omega

/-- An entry is written that counts 1 more for station n, which has room for a claim. -/
theorem setClaim_one (h : Bounded s) {q : Position} {x : ClaimEntry} {n : StationId}
    (list : x.waiters.length ≤ Config.maxWaiters)
    (load : ∀ m, x.load m = (s.claim q).load m + if n = m then 1 else 0) (room : claimLoad s.claims n < Config.maxClaims) :
    Bounded (s.setClaim q x) := by
  refine { h with claims := ⟨fun p => ?_, fun m => ?_⟩ }
  · simp only [State.setClaim, Table.get_set]
    split
    · exact list
    · exact h.claims.lists p
  · have moved : _ = _ + x.load m := claimLoad_set s.claims q x m
    have more : x.load m = (s.claims.get q).load m + _ := load m
    have before := h.claims.loads m
    simp only [State.setClaim]
    split at more
    · next e => subst e; omega
    · omega

theorem setNode (h : Bounded s) {q : Position} {x : Node} (hx : x.Bounded) : Bounded (s.setNode q x) := by
  refine { h with nodes := fun p => ?_ }
  simp only [State.setNode, Table.get_set]
  split
  · exact hx
  · exact h.nodes p

theorem setRule (h : Bounded s) {i : RuleIx} {x : Rule} (hx : x.hits ≤ Config.maxCount) : Bounded (s.setRule i x) := by
  refine { h with hits := fun j => ?_ }
  simp only [State.setRule, Table.get_set]
  split
  · exact hx
  · exact h.hits j

theorem node (h : Bounded s) (q : Position) : (s.node q).Bounded := h.nodes q

/-! ### Stations and claims -/

theorem handOver (h : Bounded s) (q : Position) : Bounded (handOver q s) := by
  simp only [Machine.handOver]
  split
  · exact h
  · next w found =>
    refine (h.setClaim ?_ fun n => ClaimEntry.load_handOver found _ n).out (.answer _ _ _)
    exact (List.eraseP_sublist).length_le

/-- An entry that has lost its holder keeps its counts in range, whatever bar is set. -/
theorem freeClaim (h : Bounded s) (q : Position) (bar : Option Bar) :
    Bounded (s.setClaim q { s.claim q with hold := none, bar }) :=
  h.setClaim le_rfl fun n => ClaimEntry.load_release _ bar n

theorem removeWaits (h : Bounded s) (n : StationId) : Bounded (removeWaits n s) := by
  have fewer : ∀ e : ClaimEntry, ∀ m,
      ({ e with waiters := e.waiters.filter fun w => decide (w.station ≠ n) } : ClaimEntry).load m ≤ e.load m :=
    fun e m => Nat.add_le_add_left (List.filter_sublist.countP_le) _
  refine { h with claims := ⟨fun q => ?_, fun m => ?_⟩ }
  · simp only [Machine.removeWaits, Table.get_map]
    exact (List.length_filter_le _ _).trans (h.claims.lists q)
  · refine le_trans (Finset.sum_le_sum fun q _ => ?_) (h.claims.loads m)
    simp only [Machine.removeWaits, Table.get_map]
    exact fewer _ m

theorem removeHold (h : Bounded s) (n : StationId) (q : Position) : Bounded (removeHold n s q) := by
  simp only [Machine.removeHold]
  split
  · exact (h.freeClaim q _).handOver q
  · exact h

theorem leaveLinked (h : Bounded s) (n : StationId) : Bounded (leaveLinked n s) := by
  have claims : Bounded (removeClaims n s) := (h.removeWaits n).foldl (fun s q h => h.removeHold n q) _
  have commands : Bounded (purgeCommands n (removeClaims n s)) :=
    claims.mapAreas (.purgeCommands n _) fun x => by split <;> rfl
  have cleared : Bounded (clearTags n (purgeCommands n (removeClaims n s))) := commands.congr
  exact cleared

theorem evaluateHold (h : Bounded s) (n : StationId) : Bounded (evaluateHold s n) := by
  have written : ∀ b, Bounded (s.setStation n { s.station n with held := b }) := fun b => h.congr
  simp only [Machine.evaluateHold]
  (repeat' split)
  · exact h
  · exact (written _).out (.arenaTo _ _ _)
  · exact (written _).out (.arenaTo _ _ _)
  · exact written _

theorem evaluatePartners (h : Bounded s) (m : StationId) : Bounded (evaluatePartners m s) :=
  h.foldl (fun s n h => by split; exact h.evaluateHold n; exact h) _

theorem evaluateAll (h : Bounded s) : Bounded (evaluateAll s) := h.foldl (fun _ n h => h.evaluateHold n) _

theorem changeStation (h : Bounded s) (n : StationId) (x : Station) (arena : Option ArenaNotice) :
    Bounded (changeStation n x arena s) := by
  have written : Bounded (s.setStation n x) := h.congr
  have left : Bounded (if (s.station n).isLinked then Machine.leaveLinked n (s.setStation n x) else s.setStation n x) := by
    split
    · exact written.leaveLinked n
    · exact written
  have told : ∀ u : State, Bounded u → Bounded (match arena with | some a => arenaTo a n u | none => u) := fun u hu => by
    split
    · exact hu.out (.arenaTo _ _ _)
    · exact hu
  exact ((told _ left).out (.stationChange _ _ _ _)).evaluatePartners n

theorem disableByVerdict (h : Bounded s) (n : StationId) : Bounded (disableByVerdict n s) := by
  simp only [Machine.disableByVerdict]
  split
  case h_4 | h_5 | h_6 => exact h
  all_goals exact h.changeStation n _ _

theorem quietExpired (h : Bounded s) (n : StationId) : Bounded (quietExpired n s) := by
  simp only [Machine.quietExpired]
  split
  · exact h.changeStation n _ _
  · exact h.congr

theorem resetStation (h : Bounded s) (n : StationId) : Bounded (resetStation s n) := by
  simp only [Machine.resetStation]
  split
  · exact h
  · exact h.congr
  all_goals exact h.changeStation n _ _

theorem afterLink (h : Bounded s) (n : StationId) (old : StationState) : Bounded (afterLink n old s) := by
  have told := (h.out (.stationChange n old .linked s)).evaluatePartners n
  simp only [Machine.afterLink]
  split
  · exact told.out (.arenaTo _ _ _)
  · exact told

theorem linkRecord (h : Bounded s) (n : StationId) (k : RadioPort) : Bounded (linkRecord n k s) := h.congr

theorem answerJoin (h : Bounded s) (k : RadioPort) (n : StationId) (code : AnswerCode) (sequence : Byte) :
    Bounded (answerJoin k n code sequence s) := h.out (.answerJoin _ _ _ _ _)

theorem handleJoin (h : Bounded s) (k : RadioPort) (n : StationId) (f : FrameBody) : Bounded (handleJoin k n f s) := by
  have linked : Bounded (Machine.answerJoin k n .joinOk f.sequence (Machine.linkRecord n k s)) :=
    (h.linkRecord n k).answerJoin k n _ _
  have refused : ∀ code, Bounded (Machine.answerJoin k n code f.sequence s) := fun code => h.answerJoin k n code _
  simp only [Machine.handleJoin]
  split
  · exact h
  · split
    · exact h
    · split
      · exact linked.afterLink n _
      · exact refused _
    · split
      · exact linked.afterLink n _
      · exact refused _
    · exact linked
    · exact refused _
    · exact refused _

theorem handleBeacon (h : Bounded s) (k : RadioPort) (n : StationId) : Bounded (handleBeacon k n s) := by
  simp only [Machine.handleBeacon]
  split
  · exact (h.linkRecord n k).afterLink n _
  · exact h.linkRecord n k
  all_goals exact h

theorem answerClaim (h : Bounded s) (kind : Kind) (n : StationId) (f : FrameBody) (position : Byte) (code : AnswerCode)
    (extra : Nat) : Bounded (answerClaim kind n f position code extra s) := h.out (.answerClaim _ _ _ _ _ _ _)

/-- A CLAIM is granted or queued only to a robot that waits nowhere and holds 1 entry at most (R75). -/
theorem judgeClaim (h : Bounded s) (n : StationId) (f : FrameBody) (q : Position) : Bounded (judgeClaim n f q s) := by
  have said : ∀ code extra, Bounded (Machine.answerClaim .claim n f (positionByte f) code extra s) :=
    fun code extra => h.answerClaim _ _ _ _ code extra
  have room : ¬s.waitsAnywhere n = true → ¬Config.maxClaims ≤ s.claimCount n →
      claimLoad s.claims n < Config.maxClaims := fun waits held => by
    rw [claimLoad_of_waitsAnywhere (by simpa using waits)]
    omega
  simp only [Machine.judgeClaim]
  (repeat' split)
  any_goals exact said _ _
  · next waits held full =>
    have queued := h.setClaim_one (x := { s.claim q with waiters := (s.claim q).waiters ++ [⟨n, wordAt f.payload 1⟩] })
      (by simp only [List.length_append, List.length_singleton]; omega) (ClaimEntry.load_append _ _) (room waits held)
    exact queued.answerClaim _ _ _ _ _ _
  · next free _ waits held _ =>
    have granted := h.setClaim_one
      (x := { s.claim q with hold := some ⟨n, grantedHold (wordAt f.payload 1) (s.profile q).maxHold⟩ })
      (h.claims.lists q) (ClaimEntry.load_grant free _) (room waits held)
    exact granted.answerClaim _ _ _ _ _ _

theorem handleClaim (h : Bounded s) (n : StationId) (f : FrameBody) : Bounded (handleClaim n f s) := by
  simp only [Machine.handleClaim]
  (repeat' split)
  any_goals exact h.answerClaim _ _ _ _ _ _
  exact h.judgeClaim n f _

theorem handleRelease (h : Bounded s) (n : StationId) (f : FrameBody) : Bounded (handleRelease n f s) := by
  simp only [Machine.handleRelease]
  (repeat' split)
  any_goals exact h.answerClaim _ _ _ _ _ _
  · exact ((h.freeClaim _ _).answerClaim _ _ _ _ _ _).handOver _
  · refine Bounded.answerClaim (h.setClaim (List.length_filter_le _ _) fun m => ?_) _ _ _ _ _ _
    exact Nat.add_le_add_left (List.filter_sublist.countP_le) _

theorem holdExpired (h : Bounded s) (q : Position) : Bounded (holdExpired q s) := by
  simp only [Machine.holdExpired]
  split
  · exact h
  · exact ((h.freeClaim q _).out (.answer _ _ _)).handOver q

theorem barExpired (h : Bounded s) (q : Position) : Bounded (barExpired q s) := by
  have cleared : Bounded (s.setClaim q { s.claim q with bar := none }) := h.setClaim le_rfl fun _ => le_rfl
  simp only [Machine.barExpired]
  split
  · exact cleared.handOver q
  · exact cleared

theorem claimsBounded_free : ClaimsBounded (.fill 32 .free) where
  lists q := by rw [Table.get_fill]; exact Nat.zero_le _
  loads n := by simp [claimLoad, ClaimEntry.load, ClaimEntry.free, ClaimEntry.heldBy]

theorem clearClaims (h : Bounded s) : Bounded (clearClaims s) := { h with claims := claimsBounded_free }

/-! ### Credit and the stages of a station frame -/

theorem setBalance (h : Bounded s) {n : StationId} {b : Nat} (hb : b ≤ s.credit.cap) : Bounded (s.setBalance n b) := by
  refine { h with credit := fun m => ?_ }
  simp only [State.setBalance, Table.get_set]
  split
  · exact hb
  · exact h.credit m

theorem fillCredit (h : Bounded s) : Bounded (fillCredit s) :=
  { h with credit := fun m => by simp [Machine.fillCredit, Credit.cap] }

theorem storeArea (h : Bounded s) {a : AreaId} (room : (s.area a).full = false) (f : Frame) :
    Bounded (s.setArea a ((s.area a).store f)) := h.setArea (.store s a f room) (h.areas a).drops

theorem chargeAndStore (h : Bounded s) (n : StationId) (f : Frame) (q : Position) (steer : Option AreaId) :
    Bounded (chargeAndStore n f q steer s) := by
  simp only [Machine.chargeAndStore]
  (repeat' split)
  · exact h.out (.refuseElement _ _ _ _ _ _)
  · exact h.out (.refuseElement _ _ _ _ _ _)
  · exact (h.out (.dropAt _ _)).out (.refuseElement _ _ _ _ _ _)
  · next room =>
    have charged := h.setBalance (n := n) (b := s.balance n - (s.profile q).cost (f.payload.getD 1 0))
      ((Nat.sub_le _ _).trans (h.credit n))
    exact charged.storeArea (by simpa using room) f

theorem handleElement (h : Bounded s) (n : StationId) (f : Frame) (steer : Option AreaId) :
    Bounded (handleElement n f steer s) := by
  simp only [Machine.handleElement, admitCommand]
  (repeat' split)
  any_goals exact h.out (.refuseElement _ _ _ _ _ _)
  all_goals exact h.chargeAndStore _ _ _ _

theorem handleFrame (h : Bounded s) (k : RadioPort) (n : StationId) (f : Frame) (steer : Option AreaId) :
    Bounded (handleFrame k n f steer s) := by
  simp only [Machine.handleFrame]
  split
  case h_1 => exact h.handleJoin k n _
  case h_2 => exact h.handleBeacon k n
  case h_3 | h_4 => exact h.out (.handleForward _ _ _ _)
  case h_5 => exact h.handleElement n f steer
  case h_6 => exact h.handleClaim n _
  case h_7 => exact h.handleRelease n _
  all_goals exact h

theorem countHit (h : Bounded s) (i : RuleIx) : Bounded (countHit i s) := h.setRule (Nat.min_le_left _ _)

theorem applyVerdict (h : Bounded s) (u : Rule) (k : RadioPort) (n : StationId) (f : Frame) :
    Bounded (applyVerdict u k n f s) := by
  simp only [Machine.applyVerdict]
  split
  · exact h.handleFrame k n f _
  · exact (h.out (.offerReport _ _ _)).handleFrame k n f _
  · exact h.handleFrame k n f _
  · exact h.out (.denyFrame _ _ _ _)
  · exact h
  · exact h.disableByVerdict n

theorem passPhaseGate (h : Bounded s) (k : RadioPort) (n : StationId) (f : Frame) : Bounded (passPhaseGate k n f s) := by
  simp only [Machine.passPhaseGate, applyRules]
  (repeat' split)
  · exact (h.countHit _).applyVerdict _ k n f
  · exact h.handleFrame k n f _
  · exact h
  · exact h.out (.refuseFrame _ _ _ _)

theorem stationFrame (h : Bounded s) (k : RadioPort) (f : Frame) : Bounded (stationFrame k f s) := by
  have heard : ∀ n, Bounded (restartQuiet n s) := fun n => h.congr
  have roamed : ∀ n, Bounded (roam k n (restartQuiet n s)) := fun n => (heard n).congr
  simp only [Machine.stationFrame]
  (repeat' split)
  · exact h
  · exact h.answerJoin k _ _ _
  · exact h
  · exact heard _
  · exact heard _
  · exact (roamed _).passPhaseGate k _ f

/-! ### The chain -/

theorem hear (h : Bounded s) (q : Position) : Bounded (hear q s) := by
  have found := h.node q
  simp only [Machine.hear]
  split
  · exact h
  · exact h.setNode ⟨Nat.zero_le _, fun _ => rfl⟩
  · exact h.setNode ⟨Nat.zero_le _, fun _ => rfl⟩
  · exact (h.setNode ⟨Nat.zero_le _, fun _ => rfl⟩).out (.nodeChange _ _ _ _ _)

theorem switchEnd (h : Bounded s) (q k : Position) : Bounded (switchEnd q k s) := by
  simp only [Machine.switchEnd]
  split
  · exact (h.setNode (x := { s.node k with servingEnd := .cb }) (h.node k)).out (.nodeChange _ _ _ _ _)
  · exact h

theorem loseNode (h : Bounded s) (q : Position) : Bounded (loseNode q s) := by
  have lost : Bounded (s.setNode q { s.node q with state := .lost, misses := Config.maxMisses }) :=
    h.setNode ⟨le_rfl, nofun⟩
  have told := lost.out (.nodeChange q .ready .lost (s.node q).servingEnd _)
  simp only [Machine.loseNode]
  split
  · exact told.foldl (fun _ k h => h.switchEnd q k) _
  · exact told

theorem chargeMiss (h : Bounded s) (q : Position) : Bounded (chargeMiss q s) := by
  have charged : (s.node q).state ≠ .absent →
      Bounded (s.setNode q { s.node q with misses := countUp Config.maxMisses (s.node q).misses 1 }) :=
    fun found => h.setNode ⟨Nat.min_le_left _ _, fun absent => absurd absent found⟩
  simp only [Machine.chargeMiss]
  split
  · exact h
  · next ready =>
    split
    · exact h.loseNode q
    · exact charged (by simp [ready])
  · next present => exact charged (by simp [present])
  · next lost => exact charged (by simp [lost])

theorem endTransaction (h : Bounded s) (t : TagId) (outcome : AnswerCode) (value : BitVec 16) :
    Bounded (endTransaction t outcome value s) := by
  have freed : Bounded (s.setTag t none) := h.congr
  simp only [Machine.endTransaction]
  (repeat' split)
  · exact h
  · exact freed.out (.answer _ _ _)
  · exact freed
  · exact freed.out (.laterResult _ _ _ _)

theorem abortTags (h : Bounded s) (p : TagRecord → Bool) : Bounded (abortTags p s) :=
  h.foldl (fun s t h => by split; exact h.endTransaction t _ _; exact h) _

theorem replyTimedOut (h : Bounded s) (t : TagId) : Bounded (replyTimedOut t s) := by
  simp only [Machine.replyTimedOut]
  split
  · exact h
  · exact (h.endTransaction t _ _).chargeMiss _

theorem recheckAndSend (h : Bounded s) (t : TagId) (f : Frame) : Bounded (recheckAndSend t f s) := by
  simp only [Machine.recheckAndSend]
  (repeat' split)
  · exact h.out (.answer _ _ _)
  · exact h.congr
  · exact h

theorem popFrame (h : Bounded s) (a : AreaId) : Bounded (popFrame a s) := h.setArea (.popFrame a s) (h.areas a).drops

theorem dequeueOne (h : Bounded s) : Bounded (dequeueOne s) := by
  simp only [Machine.dequeueOne]
  (repeat' split)
  · exact h
  · exact h
  · exact (h.popFrame _).recheckAndSend _ _

theorem sendPending (h : Bounded s) : Bounded (sendPending s) := by
  simp only [Machine.sendPending]
  split
  · exact h
  · exact h.congr

theorem wakeNode_bounded {x : Node} (h : x.Bounded) : (wakeNode x).Bounded := by
  unfold wakeNode
  split
  · exact ⟨Nat.zero_le _, fun _ => rfl⟩
  · exact h

theorem finishCensus (h : Bounded s) (requestTag : Byte) : Bounded (finishCensus requestTag s) := by
  have signalled : ∀ u type, Bounded u → Bounded (sendSignal type u) := fun u type hu => hu.congr
  have woken : ∀ u : State, Bounded u → Bounded { u with chain := { u.chain with nodes := u.chain.nodes.map wakeNode } } :=
    fun u hu => { hu with nodes := fun q => by simpa using wakeNode_bounded (hu.nodes q) }
  have ended : ∀ u : State, Bounded u → Bounded (u.setCensus none) := fun u hu => hu.congr
  exact (ended _ (signalled _ .resume (woken _ (signalled s .wake h)))).out (.laterResult _ _ _ _)

theorem continueCensus (h : Bounded s) (c : Census) : Bounded (continueCensus c s) := by
  have probed : ∀ pass q, Bounded (sendProbe c.requestTag pass q s) := fun pass q => h.congr
  simp only [Machine.continueCensus]
  (repeat' split)
  any_goals exact probed _ _
  all_goals exact h.finishCensus _

theorem takeReply (h : Bounded s) (q : Position) (tag status : Byte) (value : BitVec 16) :
    Bounded (takeReply q tag status value s) := by
  simp only [Machine.takeReply]
  (repeat' split)
  · exact h
  · exact h.hear q
  · exact (h.hear q).endTransaction _ _ _

theorem takeSense (h : Bounded s) (q : Position) (code : Byte) : Bounded (takeSense q code s) := by
  have delivered : ∀ u, Bounded u → Bounded (deliverSense q code u) := fun u hu => by
    simp only [deliverSense]
    split
    · exact hu.congr
    · exact hu
  simp only [Machine.takeSense]
  split
  · exact h
  · exact delivered _ (h.hear q)

theorem takeProbeReply (h : Bounded s) (e : ChainEnd) (q : Position) (kind : NodeKind) :
    Bounded (takeProbeReply e q kind s) := by
  have heard := h.hear q
  simp only [Machine.takeProbeReply]
  split
  · exact heard
  · have answered := heard.setNode (q := q)
      (x := { (Machine.hear q s).node q with state := .present, kind := some kind, servingEnd := e })
      ⟨(heard.node q).1, nofun⟩
    exact answered.continueCensus _

theorem setSide (h : Bounded s) (e : ChainEnd) (x : ChainSide) : Bounded (s.setSide e x) := h.congr

theorem resetChainEnd (h : Bounded s) (e : ChainEnd) : Bounded (resetChainEnd e s) := by
  have abandoned : ∀ u, Bounded u → Bounded (abandonProbe e u) := fun u hu => by
    simp only [abandonProbe]
    split
    · exact hu
    · exact hu.continueCensus _
  have halted : ∀ u, Bounded u → Bounded (resendHalt e u) := fun u hu => hu.congr
  exact halted _ (abandoned _ ((h.setSide e _).abortTags _))

theorem resetNode (h : Bounded s) (q : Position) : Bounded (resetNode q s) := by
  have signalled : ∀ u type, Bounded u → Bounded (sendSignal type u) := fun u type hu => hu.congr
  have present : ∀ u, Bounded u → Bounded (u.setNode q { u.node q with state := .present, misses := 0 }) :=
    fun u hu => hu.setNode ⟨Nat.zero_le _, nofun⟩
  have ready : ∀ u, Bounded u → Bounded (u.setNode q { u.node q with state := .ready }) :=
    fun u hu => hu.setNode ⟨(hu.node q).1, nofun⟩
  have sent : Bounded (sendOn (s.node q).servingEnd (addressedMessage .resetNode q) s) := h.congr
  have woken := ready _ (signalled _ .wake (present _ (sent.abortTags fun r => decide (r.position = q))))
  simp only [Machine.resetNode]
  (repeat' split)
  · exact signalled _ .halt woken
  · exact woken
  · exact (signalled _ .halt woken).out (.nodeChange _ _ _ _ _)
  · exact woken.out (.nodeChange _ _ _ _ _)

/-! ### The tally, the phases and time -/

theorem compareGoal (h : Bounded s) (g : GoalSlot) : Bounded (compareGoal g s) := by
  refine h.foldl (fun s i h => ?_) _
  have written : ∀ r, Bounded (s.setRecord g i.1 i.2 r) := fun r => h.congr
  simp only [compareRecord]
  (repeat' split)
  · exact h
  · exact written _
  · exact (written _).out (.notice _ _ _)

/-- The tally is written with the bonuses and penalties as they were. -/
theorem setTally (h : Bounded s) {x : Tally} (bonus : x.bonus = s.tally.bonus) (penalty : x.penalty = s.tally.penalty) :
    Bounded (s.setTally x) := h.congr (bonus := bonus) (penalty := penalty)

theorem settleExpired (h : Bounded s) (g : GoalSlot) : Bounded (settleExpired g s) := by
  have stopped : Bounded (s.setSettle g none) := h.congr
  exact stopped.compareGoal g

theorem endFinalSettle (h : Bounded s) : Bounded (endFinalSettle s) := by
  have compared : ∀ u, Bounded u → Bounded ((List.finRange 8).foldl compareConfigured u) := fun u hu => by
    refine hu.foldl (fun s g h => ?_) _
    simp only [compareConfigured]
    split
    · exact h.compareGoal g
    · exact h
  have told : ∀ u data, Bounded u → Bounded (notice .final data (u.setTally { u.tally with final := .done })) :=
    fun u data hu => Bounded.out (hu.setTally (x := { u.tally with final := .done }) rfl rfl) (.notice _ _ _)
  have stopped : Bounded (s.setTally { s.tally with settle := .fill 8 none }) := h.setTally rfl rfl
  exact told _ _ (compared _ stopped)

theorem tallyEntry (h : Bounded s) (new : Phase) : Bounded (tallyEntry new s) := by
  have started : Bounded (s.setTally { s.tally with final := .running s.finalSettleTime }) := h.setTally rfl rfl
  simp only [Machine.tallyEntry, startFinalSettle]
  (repeat' split)
  · exact started.endFinalSettle
  · exact started
  · exact h

/-- The phase controller is written with its accumulator in its range. -/
theorem setControl (h : Bounded s) {x : PhaseControl} (hx : x.accumulator ≤ Config.tickLength) : Bounded (s.setControl x) :=
  { h with accumulator := hx }

theorem entryAccumulator_le (new : Phase) (k : Nat) : entryAccumulator new k ≤ k := by
  unfold entryAccumulator
  split
  · exact Nat.zero_le k
  · exact le_rfl

theorem holdEntry (h : Bounded s) (new : Phase) : Bounded (holdEntry new s) := by
  simp only [Machine.holdEntry]
  split
  · exact h.evaluateAll
  · exact h.congr

theorem claimEntry (h : Bounded s) (new : Phase) : Bounded (claimEntry new s) := by
  simp only [Machine.claimEntry]
  split
  · exact h.clearClaims
  · exact h

theorem creditEntry (h : Bounded s) (old new : Phase) : Bounded (creditEntry old new s) := by
  simp only [Machine.creditEntry]
  split
  · exact h.fillCredit
  · exact h

theorem queueEntry (h : Bounded s) (old new : Phase) : Bounded (queueEntry old new s) := by
  simp only [Machine.queueEntry]
  split
  · exact h.mapAreas (.purgePilot s) fun _ => rfl
  · exact h

theorem chainEntry (h : Bounded s) (old new : Phase) : Bounded (chainEntry old new s) := h.congr

theorem enterPhase (h : Bounded s) (new : Phase) (timer : Nat) : Bounded (enterPhase new timer s) := by
  have entered : Bounded (s.setControl { s.control with
      phase := new, timer, accumulator := entryAccumulator new s.control.accumulator }) :=
    h.setControl ((entryAccumulator_le _ _).trans h.accumulator)
  exact ((((((entered.out (.announcePhase _)).holdEntry new).claimEntry new).creditEntry _ new).queueEntry _ new).chainEntry
    _ new).tallyEntry new

theorem passThroughIn (k : Nat) (h : Bounded s) : Bounded (passThroughIn k s) := by
  induction k generalizing s with
  | zero => exact h
  | succ k ih =>
    simp only [Machine.passThroughIn]
    (repeat' split)
    · exact ih (h.enterPhase _ _)
    · exact h
    · exact h

theorem passThrough (h : Bounded s) : Bounded (passThrough s) := h.passThroughIn 4

theorem silenceExpired (h : Bounded s) : Bounded (silenceExpired s) := by
  have stopped : Bounded (s.setControl { s.control with silence := none }) := h.setControl h.accumulator
  simp only [Machine.silenceExpired]
  split
  · exact stopped.enterPhase _ _
  · exact stopped

theorem elapse (h : Bounded s) (n : Nat) : Bounded (elapse n s) := by
  have time : Bounded { s with
      credit := (Machine.elapse n s).credit, claims := (Machine.elapse n s).claims
      control := (Machine.elapse n s).control } :=
    { h with
      claims := ⟨fun q => (congrArg List.length (elapse_waiters n s q)).trans_le (h.claims.lists q), fun m => by
        refine le_trans (le_of_eq (Finset.sum_congr rfl fun q _ => ?_)) (h.claims.loads m)
        exact congrArg₂ (· + ·) (congrArg Bool.toNat (elapse_heldBy n s q m))
          (congrArg (List.countP _) (elapse_waiters n s q))⟩
      credit := elapse_creditFits n h.credit
      accumulator := elapse_accumulator_le n h.accumulator }
  exact time.congr

theorem tickFalls (h : Bounded s) : Bounded (tickFalls s) :=
  { h with
    credit := fun n => by
      simp only [Machine.tickFalls, Credit.tick, Table.get_map]
      exact Nat.min_le_left _ _
    accumulator := Nat.zero_le _ }

theorem takeFrame (h : Bounded s) (p : Port) : Bounded (takeFrame p s) := by
  simp only [Machine.takeFrame]
  (repeat' split)
  · exact h
  · exact h
  · exact (h.popFrame _).setPort (by cases p <;> rfl)

theorem mgmtArrives (h : Bounded s) : Bounded (mgmtArrives s) := { h with }

theorem discardArrival (h : Bounded s) (p : Port) : Bounded (discardArrival p s) :=
  (h.setPort (x := { s.port p with receive := .idle }) rfl).countDiscard p

/-! ### The resets -/

theorem powerOnAreas_bounded (a : AreaId) : (powerOnAreas.get a).Bounded := by
  simp only [powerOnAreas, Table.get_set, Table.get_fill]
  split
  · exact ⟨by decide, Nat.zero_le _, Nat.zero_le _, Nat.zero_le _⟩
  · exact ⟨Nat.zero_le _, Nat.zero_le _, Nat.zero_le _, Nat.zero_le _⟩

theorem powerOnBlocks (s : State) : Bounded (powerOnBlocks s) where
  ml := Nat.zero_le _
  radio k := by simp only [Machine.powerOnBlocks, Table.get_map]; exact Nat.zero_le _
  areas := powerOnAreas_bounded
  claims := claimsBounded_free
  credit n := by simp only [Machine.powerOnBlocks, Credit.powerOn, Table.get_fill]; exact le_rfl
  nodes q := by
    simp only [Machine.powerOnBlocks, Chain.powerOn, Table.get_fill]
    exact ⟨Nat.zero_le _, fun _ => rfl⟩
  hits i := by simp only [Machine.powerOnBlocks, Classifier.powerOn, Table.get_fill]; exact Nat.zero_le _
  active := Nat.zero_le _
  partners := show ArenaMap.powerOn.partners.count id ≤ Config.maxPartners by decide
  bonus a := by simp only [Machine.powerOnBlocks, Tally.powerOn, Table.get_fill]; exact Nat.zero_le _
  penalty a := by simp only [Machine.powerOnBlocks, Tally.powerOn, Table.get_fill]; exact Nat.zero_le _
  accumulator := Nat.zero_le _

theorem restart (cause : StartCause) (s : State) : Bounded (restart cause s) := (powerOnBlocks s).out (.notice _ _ _)

theorem fieldReset (h : Bounded s) : Bounded (fieldReset s) := by
  have stations : Bounded ((List.finRange 32).foldl Machine.resetStation s) := h.foldl (fun _ n h => h.resetStation n) _
  have emptied : ∀ u, Bounded u → Bounded (emptyStations u) := fun u hu =>
    hu.mapAreas (.emptyStations u) fun x => by split <;> rfl
  have ended : ∀ u, Bounded u → Bounded (resetMatch u) := fun u hu =>
    { hu with
      bonus := fun a => by simp [resetMatch, Tally.fieldReset, Tally.powerOn]
      penalty := fun a => by simp [resetMatch, Tally.fieldReset, Tally.powerOn]
      accumulator := Nat.zero_le _ }
  have reset := ended _ (emptied _ stations.clearClaims.fillCredit)
  simp only [Machine.fieldReset]
  split
  · exact reset.enterPhase _ _
  · exact reset

/-! ### The owners of requests -/

/-- The map is written with its partners as they were. -/
theorem setMap (h : Bounded s) {m : ArenaMap} (partners : m.partners.count id ≤ Config.maxPartners) :
    Bounded (s.setMap m) := { h with partners := partners }

theorem ownFieldReset (h : Bounded s) : Bounded (ownFieldReset s).state := by
  simp only [Machine.ownFieldReset]
  (repeat' split) <;> simp only [done_state, refuse_state, h]
  exact h.fieldReset

theorem ownLinkReset (h : Bounded s) (r : Request) : Bounded (ownLinkReset r s).state := by
  simp only [Machine.ownLinkReset]
  (repeat' split) <;> simp only [done_state, refuse_state, h]
  · exact h.resetChainEnd _
  · exact h.resetChainEnd _
  · exact h.setPort rfl

theorem enrol (h : Bounded s) (n : StationId) (kind : StationKind) (a : Alliance) (team : Nat)
    (partner : Option StationId) : Bounded (enrol n kind a team partner s) := by
  have written : ∀ x, Bounded (s.setStation n x) := fun x => h.congr
  simp only [Machine.enrol]
  split
  · exact ((written _).out (.stationChange _ _ _ _)).evaluatePartners n
  · exact written _

theorem ownEnrol (h : Bounded s) (r : Request) : Bounded (ownEnrol r s).state := by
  simp only [Machine.ownEnrol]
  (repeat' split) <;> simp only [done_state, refuse_state, h]
  all_goals exact h.enrol _ _ _ _ _

theorem ownUnenrol (h : Bounded s) (r : Request) : Bounded (ownUnenrol r s).state := by
  simp only [Machine.ownUnenrol]
  (repeat' split) <;> simp only [done_state, refuse_state, h]
  exact h.changeStation _ _ _

theorem ownDisable (h : Bounded s) (r : Request) : Bounded (ownDisable r s).state := by
  simp only [Machine.ownDisable]
  (repeat' split) <;> simp only [done_state, refuse_state, h]
  all_goals exact h.changeStation _ _ _

theorem ownEnable (h : Bounded s) (r : Request) : Bounded (ownEnable r s).state := by
  simp only [Machine.ownEnable]
  (repeat' split) <;> simp only [done_state, refuse_state, h]
  exact h.changeStation _ _ _

theorem ownEject (h : Bounded s) (r : Request) : Bounded (ownEject r s).state := by
  simp only [Machine.ownEject]
  (repeat' split) <;> simp only [done_state, refuse_state, h]
  all_goals exact h.changeStation _ _ _

theorem ownReadStation (h : Bounded s) (r : Request) : Bounded (ownReadStation r s).state := by
  simp only [Machine.ownReadStation]
  split <;> exact h

theorem ownStaleLimit (h : Bounded s) (r : Request) : Bounded (ownStaleLimit r s).state := by
  simp only [Machine.ownStaleLimit]
  split
  · exact h
  · exact { h with }

/-- A rule written by a request has no hits. -/
theorem ruleOf_hits {bs : List Byte} {i : RuleIx} {u : Rule} (h : ruleOf bs = some (i, u)) : u.hits = 0 := by
  unfold ruleOf at h
  split at h
  · split at h
    · cases h
    · injection h with h
      injection h with _ h
      rw [← h]
  · cases h

theorem ownWriteRule (h : Bounded s) (r : Request) : Bounded (ownWriteRule r s).state := by
  simp only [Machine.ownWriteRule]
  (repeat' split) <;> simp only [done_state, refuse_state, h]
  next written => exact h.setRule ((ruleOf_hits written).trans_le (Nat.zero_le _))

theorem ownReadRule (h : Bounded s) (r : Request) : Bounded (ownReadRule r s).state := by
  simp only [Machine.ownReadRule]
  (repeat' split) <;> simp only [done_state, refuse_state, h]
  exact h.setRule (Nat.zero_le _)

theorem ownRuleCount (h : Bounded s) (r : Request) : Bounded (ownRuleCount r s).state := by
  simp only [Machine.ownRuleCount]
  (repeat' split) <;> simp only [done_state, refuse_state, h]
  next limit => exact { h with active := Nat.not_lt.mp limit }

theorem ownKindDefault (h : Bounded s) (r : Request) : Bounded (ownKindDefault r s).state := by
  simp only [Machine.ownKindDefault]
  (repeat' split) <;> simp only [done_state, refuse_state, h]
  exact { h with }

theorem ownMapWindow (h : Bounded s) (r : Request) : Bounded (ownMapWindow r s).state := by
  simp only [Machine.ownMapWindow]
  (repeat' split) <;> simp only [done_state, refuse_state, h]
  all_goals exact h.setMap h.partners

theorem ownHide (h : Bounded s) (r : Request) : Bounded (ownHide r s).state := by
  simp only [Machine.ownHide]
  split
  · exact h.setMap h.partners
  · exact h

theorem count_set_le (t : Table Bool 32) (q : Position) (b : Bool) :
    (t.set q b).count id ≤ t.count id + b.toNat := by
  simp only [Table.count, Table.set, List.countP_set (by simp : q.val < t.items.length)]
  cases b <;> simp

/-- A declaration is added while there are fewer than 8 (R66). -/
theorem declarePartner (h : Bounded s) (q : Position) : Bounded (declarePartner q s).state := by
  simp only [Machine.declarePartner]
  (repeat' split) <;> simp only [done_state, refuse_state, h]
  next full =>
    have more := count_set_le s.map.partners q true
    simp only [not_or, Nat.not_le, ArenaMap.partnerCount] at full
    refine h.setMap (more.trans ?_)
    exact full.2.2

theorem removePartner (h : Bounded s) (q : Position) : Bounded (removePartner q s).state := by
  simp only [Machine.removePartner]
  (repeat' split) <;> simp only [done_state, refuse_state, h]
  exact h.setMap ((count_set_le s.map.partners q false).trans h.partners)

theorem ownPartner (h : Bounded s) (r : Request) : Bounded (ownPartner r s).state := by
  simp only [Machine.ownPartner]
  (repeat' split)
  · exact h
  · exact h.declarePartner _
  · exact h.removePartner _
  · exact h

theorem ownProfile (h : Bounded s) (r : Request) : Bounded (ownProfile r s).state := by
  simp only [Machine.ownProfile]
  (repeat' split) <;> simp only [done_state, refuse_state, h]
  exact h.setMap h.partners

theorem ownReadMap (h : Bounded s) (r : Request) : Bounded (ownReadMap r s).state := by
  simp only [Machine.ownReadMap]
  (repeat' split) <;> simp only [done_state, refuse_state, h]

theorem ownReadClaim (h : Bounded s) (r : Request) : Bounded (ownReadClaim r s).state := by
  simp only [Machine.ownReadClaim]
  (repeat' split) <;> simp only [done_state, refuse_state, h]

theorem ownCreditParams (h : Bounded s) (r : Request) : Bounded (ownCreditParams r s).state := by
  simp only [Machine.ownCreditParams]
  (repeat' split) <;> simp only [done_state, refuse_state, h]
  exact { h with credit := fun m => by simp [Machine.fillCredit, Credit.cap] }

theorem ownReadCredit (h : Bounded s) (r : Request) : Bounded (ownReadCredit r s).state := by
  simp only [Machine.ownReadCredit]
  (repeat' split) <;> simp only [done_state, refuse_state, h]

theorem writeArea (h : Bounded s) {a : AreaId} {x : Area} (hx : x.Bounded) : Bounded (s.setArea a x) := by
  refine { h with areas := fun b => ?_ }
  simp only [State.setArea, Table.get_set]
  split
  · exact hx
  · exact h.areas b

/-- An area is laid out while it is empty, within the 256 slots (R118). -/
theorem ownArea (h : Bounded s) (r : Request) : Bounded (ownArea r s).state := by
  simp only [Machine.ownArea]
  (repeat' split) <;> simp only [done_state, refuse_state, h]
  all_goals
    next a _ outside busy _ _ =>
    have empty : (s.area a).frames = [] := by simpa using busy
    exact h.writeArea
      { h.areas a with
        memory := by simp only; omega
        room := by simp [empty] }

theorem ownJoinArea (h : Bounded s) (r : Request) : Bounded (ownJoinArea r s).state := by
  simp only [Machine.ownJoinArea]
  (repeat' split) <;> simp only [done_state, refuse_state, h]
  next a _ _ _ _ _ _ => exact h.writeArea { h.areas a with }

theorem ownClearArea (h : Bounded s) (r : Request) : Bounded (ownClearArea r s).state := by
  simp only [Machine.ownClearArea]
  split
  · exact h
  · next a _ =>
    have cleared : Bounded (s.setArea a { s.area a with frames := [] }) :=
      h.writeArea { h.areas a with room := Nat.zero_le _ }
    simp only [done_state]
    split
    · exact cleared.foldl (fun _ f h => h.out (.answerCleared _ f)) _
    · exact cleared

theorem ownReadArea (h : Bounded s) (r : Request) : Bounded (ownReadArea r s).state := by
  simp only [Machine.ownReadArea]
  split
  · simp only [done_state]
    split
    · exact h.setArea (.clearCounts s _) (Nat.zero_le _)
    · exact h
  · exact h

theorem powerOnNodes (q : Position) : ((Table.fill 32 Node.powerOn).get q).Bounded := by
  rw [Table.get_fill]
  exact ⟨Nat.zero_le _, fun _ => rfl⟩

theorem ownChainConfig (h : Bounded s) (r : Request) : Bounded (ownChainConfig r s).state := by
  simp only [Machine.ownChainConfig]
  (repeat' split) <;> simp only [done_state, refuse_state, h]
  · exact { h with nodes := h.nodes }
  · exact { h with nodes := powerOnNodes }

theorem ownCensus (h : Bounded s) (r : Request) : Bounded (ownCensus r s).state := by
  have surveyed : Bounded { s with chain := { s.chain with nodes := .fill 32 .powerOn } } :=
    { h with nodes := powerOnNodes }
  have probed : ∀ u, Bounded u → Bounded (sendProbe r.tag .ca 0 u) := fun u hu => hu.congr
  simp only [Machine.ownCensus]
  (repeat' split)
  · exact h
  · exact h
  · exact probed _ surveyed

theorem ownElementDirect (h : Bounded s) (r : Request) : Bounded (ownElementDirect r s).state := by
  simp only [Machine.ownElementDirect]
  (repeat' split) <;> simp only [refuse_state, accepted_state, h]
  all_goals exact h.congr

theorem ownResetNode (h : Bounded s) (r : Request) : Bounded (ownResetNode r s).state := by
  simp only [Machine.ownResetNode]
  (repeat' split) <;> simp only [done_state, refuse_state, h]
  exact h.resetNode _

theorem ownReadNode (h : Bounded s) (r : Request) : Bounded (ownReadNode r s).state := by
  simp only [Machine.ownReadNode]
  (repeat' split) <;> simp only [done_state, refuse_state, h]

theorem ownPhaseTimes (h : Bounded s) (r : Request) : Bounded (ownPhaseTimes r s).state := by
  simp only [Machine.ownPhaseTimes]
  (repeat' split) <;> simp only [done_state, refuse_state, h]
  exact h.setControl h.accumulator

theorem ownStage (h : Bounded s) : Bounded (ownStage s).state := by
  simp only [Machine.ownStage]
  (repeat' split) <;> simp only [done_state, refuse_state, h]
  exact h.enterPhase _ _

theorem ownUnstage (h : Bounded s) : Bounded (ownUnstage s).state := by
  simp only [Machine.ownUnstage]
  split <;> simp only [done_state, refuse_state, h]
  exact h.enterPhase _ _

theorem ownStart (h : Bounded s) : Bounded (ownStart s).state := by
  simp only [Machine.ownStart]
  split <;> simp only [done_state, refuse_state, h]
  exact ((h.setControl (x := { s.control with accumulator := 0 }) (Nat.zero_le _)).enterPhase _ _).passThrough

theorem ownPause (h : Bounded s) : Bounded (ownPause s).state := by
  simp only [Machine.ownPause]
  split <;> simp only [done_state, refuse_state, h]
  exact h.enterPhase _ _

theorem ownResume (h : Bounded s) : Bounded (ownResume s).state := by
  simp only [Machine.ownResume]
  split <;> simp only [done_state, refuse_state, h]
  exact (h.enterPhase _ _).passThrough

theorem ownAbort (h : Bounded s) : Bounded (ownAbort s).state := by
  simp only [Machine.ownAbort]
  split <;> simp only [done_state, refuse_state, h]
  all_goals exact h.enterPhase _ _

theorem ownSilenceLimit (h : Bounded s) (r : Request) : Bounded (ownSilenceLimit r s).state := by
  simp only [Machine.ownSilenceLimit]
  split
  · exact h
  · exact { h with }

theorem ownGoalConfig (h : Bounded s) (r : Request) : Bounded (ownGoalConfig r s).state := by
  simp only [Machine.ownGoalConfig]
  (repeat' split) <;> simp only [done_state, refuse_state, h]
  all_goals exact h.setTally rfl rfl

theorem ownRuling (h : Bounded s) (r : Request) : Bounded (ownRuling r s).state := by
  have ruled : ∀ g a p x, Bounded (s.setRecord g a p x) := fun g a p x => h.congr
  simp only [Machine.ownRuling]
  (repeat' split) <;> simp only [done_state, refuse_state, h]
  exact (ruled _ _ _ _).out (.scoreNotice _ _)

theorem ownPoints (h : Bounded s) (r : Request) {add : Tally → Alliance → Nat → Tally}
    (added : ∀ a k, Bounded (s.setTally (add s.tally a k))) : Bounded (ownPoints r add s).state := by
  simp only [Machine.ownPoints]
  (repeat' split) <;> simp only [done_state, refuse_state, h]
  exact (added _ _).out (.scoreNotice _ _)

theorem addPenalty (h : Bounded s) (a : Alliance) (k : Nat) : Bounded (s.setTally (addPenalty s.tally a k)) := by
  refine { h with penalty := fun b => ?_ }
  simp only [State.setTally, Machine.addPenalty, Table.get_set]
  split
  · exact Nat.min_le_left _ _
  · exact h.penalty b

theorem addBonus (h : Bounded s) (a : Alliance) (k : Nat) : Bounded (s.setTally (addBonus s.tally a k)) := by
  refine { h with bonus := fun b => ?_ }
  simp only [State.setTally, Machine.addBonus, Table.get_set]
  split
  · exact Nat.min_le_left _ _
  · exact h.bonus b

theorem ownReadScore (h : Bounded s) (r : Request) : Bounded (ownReadScore r s).state := by
  simp only [Machine.ownReadScore]
  (repeat' split) <;> simp only [done_state, refuse_state, h]

theorem ownerOf (h : Bounded s) (code : Nat) (r : Request) : Bounded (ownerOf code r s).state := by
  have status : Bounded (ownReadStatus s).state := { h with }
  unfold Machine.ownerOf
  split <;> simp only [done_state, refuse_state, h, status, h.ownFieldReset, h.ownLinkReset, h.ownEnrol, h.ownUnenrol, h.ownDisable, h.ownEnable,
      h.ownEject, h.ownReadStation, h.ownStaleLimit, h.ownWriteRule, h.ownReadRule, h.ownRuleCount, h.ownKindDefault,
      h.ownMapWindow, h.ownHide, h.ownPartner, h.ownProfile, h.ownReadMap, h.ownReadClaim, h.ownCreditParams,
      h.ownReadCredit, h.ownArea, h.ownJoinArea, h.ownClearArea, h.ownReadArea, h.ownChainConfig, h.ownCensus,
      h.ownElementDirect, h.ownResetNode, h.ownReadNode, h.ownPhaseTimes, h.ownStage, h.ownUnstage, h.ownStart,
      h.ownPause, h.ownResume, h.ownAbort, h.ownSilenceLimit, h.ownGoalConfig, h.ownRuling,
      h.ownPoints r h.addPenalty, h.ownPoints r h.addBonus, h.ownReadScore]

/-- Every effect keeps every count in its range. -/
theorem effect (h : Bounded s) (e : Effect s t) : Bounded t := by
  cases e with
  | kept => exact h
  | restarted cause => exact .restart cause s
  | discarded p => exact h.discardArrival p
  | station k f => exact (h.setPort (p := .rl k) (x := { s.port (.rl k) with receive := .idle }) rfl).stationFrame k f
  | short => exact h.mgmtArrives
  | refused code r x => exact h.mgmtArrives.out (.reply code r (refuse x _))
  | owned code r => exact (h.mgmtArrives.ownerOf code r).out (.reply code r _)
  | framer p x same => exact h.setPort same
  | took p => exact h.takeFrame p
  | replied q tag status value => exact h.takeReply q tag status value
  | sensed q code => exact h.takeSense q code
  | probed e q kind => exact h.takeProbeReply e q kind
  | sentNext e => exact h.setSide e _
  | dequeued => exact h.dequeueOne
  | sentPending => exact h.sendPending
  | quiet n k => exact (h.elapse k).quietExpired n
  | hold q k => exact (h.elapse k).holdExpired q
  | bar q k => exact (h.elapse k).barExpired q
  | phase k => exact (h.elapse k).passThrough
  | silence k => exact (h.elapse k).silenceExpired
  | tick k => exact (h.elapse k).tickFalls
  | timeout t k => exact (h.elapse k).replyTimedOut t
  | unanswered c k => exact (h.elapse k).continueCensus c
  | settled g k => exact (h.elapse k).settleExpired g
  | final k => exact (h.elapse k).endFinalSettle

theorem step (h : Bounded s) (hs : step s = .next t) : Bounded t :=
  step_keeps (fun _ _ h => { h with }) (fun _ h => h.elapse 1) (fun _ _ h e => h.effect e) h hs

end Bounded
end Sys2Proof.Machine
end

section
/-! SUPPORT. The tally's records: every count of a record stays in 0 to 255 by itself, whatever else the state holds. With
it the statement about all counts and totals. -/

namespace Sys2Proof.Machine

/-- A tally record's counts in their range (R175). -/
def TallyRecord.Fits (r : TallyRecord) : Prop :=
  r.main ≤ Config.maxTally ∧ r.check ≤ Config.maxTally ∧ r.ruled ≤ Config.maxTally

/-- A SENSE raises a count to 255 at most (R178). -/
theorem TallyRecord.Fits.sense {r : TallyRecord} (h : r.Fits) (sensor : Sensor) (delta : Nat) :
    (r.sense sensor delta).Fits := by
  obtain ⟨main, check, ruled⟩ := h
  have counted : ∀ k, countUp Config.maxTally k delta ≤ Config.maxTally := fun k => Nat.min_le_left _ _
  cases sensor <;> simp only [TallyRecord.sense] <;> split
  · exact ⟨counted _, check, ruled⟩
  · exact ⟨counted _, check, ruled⟩
  · exact ⟨main, counted _, ruled⟩
  · exact ⟨main, counted _, ruled⟩

namespace State.tallyFits

variable {s t : State}

theorem congr (h : s.tallyFits) (records : t.tally.records = s.tally.records) : t.tallyFits := fun g a p => by
  simpa only [State.record, records] using h g a p

theorem foldl {α : Type} {f : State → α → State} (hf : ∀ s x, s.tallyFits → (f s x).tallyFits) (l : List α)
    (h : s.tallyFits) : (l.foldl f s).tallyFits := by
  induction l generalizing s with
  | nil => exact h
  | cons x l ih => exact ih (hf s x h)

theorem setRecord (h : s.tallyFits) {g : GoalSlot} {a : Alliance} {p : Period} {r : TallyRecord} (hr : r.Fits) :
    (s.setRecord g a p r).tallyFits := fun g' a' p' => by
  rw [State.record_setRecord]
  split
  · exact hr
  · exact h g' a' p'

theorem powerOn (h : t.tally.records = Tally.powerOn.records) : t.tallyFits := fun g a p => by
  simp only [State.record, h, Tally.powerOn, Table.get_fill]
  cases p <;> exact ⟨Nat.zero_le _, Nat.zero_le _, Nat.zero_le _⟩

theorem deliverSense (h : s.tallyFits) (q : Position) (code : Byte) : (deliverSense q code s).tallyFits := by
  simp only [Machine.deliverSense]
  split
  · next g p _ _ _ =>
    have sensed := h.setRecord (g := g) (a := senseAlliance code) (p := p)
      (TallyRecord.Fits.sense (h g (senseAlliance code) p) (senseSensor code) (senseDelta code))
    exact sensed.congr rfl
  · exact h

theorem compareGoal (h : s.tallyFits) (g : GoalSlot) : (compareGoal g s).tallyFits := by
  refine h.foldl (fun s i h => ?_) _
  have compared : ∀ x, (s.setRecord g i.1 i.2 { s.record g i.1 i.2 with state := x }).tallyFits :=
    fun x => h.setRecord (h g i.1 i.2)
  simp only [compareRecord]
  (repeat' split)
  · exact h
  · exact compared _
  · exact (compared .disputed).congr (by simp)

theorem settleExpired (h : s.tallyFits) (g : GoalSlot) : (settleExpired g s).tallyFits := by
  have stopped : (s.setSettle g none).tallyFits := h.congr rfl
  exact stopped.compareGoal g

theorem endFinalSettle (h : s.tallyFits) : (endFinalSettle s).tallyFits := by
  have stopped : (s.setTally { s.tally with settle := .fill 8 none }).tallyFits := h.congr rfl
  have compared : ∀ u : State, u.tallyFits → ((List.finRange 8).foldl compareConfigured u).tallyFits := fun u hu => by
    refine hu.foldl (fun s g h => ?_) _
    simp only [compareConfigured]
    split
    · exact h.compareGoal g
    · exact h
  exact (compared _ stopped).congr (by simp [Machine.endFinalSettle, State.setTally])

theorem tallyEntry (h : s.tallyFits) (new : Phase) : (tallyEntry new s).tallyFits := by
  have started : (s.setTally { s.tally with final := .running s.finalSettleTime }).tallyFits := h.congr rfl
  simp only [Machine.tallyEntry, startFinalSettle]
  (repeat' split)
  · exact started.endFinalSettle
  · exact started
  · exact h

theorem enterPhase (h : s.tallyFits) (new : Phase) (timer : Nat) : (enterPhase new timer s).tallyFits := by
  simp only [Machine.enterPhase]
  exact tallyEntry (h.congr (by simp)) new

theorem passThroughIn (k : Nat) (h : s.tallyFits) : (passThroughIn k s).tallyFits := by
  induction k generalizing s with
  | zero => exact h
  | succ k ih =>
    simp only [Machine.passThroughIn]
    (repeat' split)
    · exact ih (h.enterPhase _ _)
    · exact h
    · exact h

theorem passThrough (h : s.tallyFits) : (passThrough s).tallyFits := h.passThroughIn 4

theorem silenceExpired (h : s.tallyFits) : (silenceExpired s).tallyFits := by
  have stopped : (s.setControl { s.control with silence := none }).tallyFits := h.congr rfl
  simp only [Machine.silenceExpired]
  split
  · exact stopped.enterPhase _ _
  · exact stopped

theorem elapse (h : s.tallyFits) (k : Nat) : (elapse k s).tallyFits := h.congr (by simp)

/-! ### The owners of requests -/

theorem ownFieldReset (h : s.tallyFits) : (ownFieldReset s).state.tallyFits := by
  have reset : ∀ u, (resetMatch u).tallyFits := fun u => powerOn rfl
  simp only [Machine.ownFieldReset, fieldReset]
  (repeat' split) <;> simp only [done_state, refuse_state, h]
  · exact (reset _).enterPhase _ _
  · exact reset _

theorem ownStage (h : s.tallyFits) : (ownStage s).state.tallyFits := by
  simp only [Machine.ownStage]
  (repeat' split) <;> simp only [done_state, refuse_state, h]
  exact h.enterPhase _ _

theorem ownUnstage (h : s.tallyFits) : (ownUnstage s).state.tallyFits := by
  simp only [Machine.ownUnstage]
  split <;> simp only [done_state, refuse_state, h]
  exact h.enterPhase _ _

theorem ownStart (h : s.tallyFits) : (ownStart s).state.tallyFits := by
  have cleared : (s.setControl { s.control with accumulator := 0 }).tallyFits := h.congr rfl
  simp only [Machine.ownStart]
  split <;> simp only [done_state, refuse_state, h]
  exact (cleared.enterPhase _ _).passThrough

theorem ownPause (h : s.tallyFits) : (ownPause s).state.tallyFits := by
  simp only [Machine.ownPause]
  split <;> simp only [done_state, refuse_state, h]
  exact h.enterPhase _ _

theorem ownResume (h : s.tallyFits) : (ownResume s).state.tallyFits := by
  simp only [Machine.ownResume]
  split <;> simp only [done_state, refuse_state, h]
  exact (h.enterPhase _ _).passThrough

theorem ownAbort (h : s.tallyFits) : (ownAbort s).state.tallyFits := by
  simp only [Machine.ownAbort]
  split <;> simp only [done_state, refuse_state, h]
  all_goals exact h.enterPhase _ _

theorem ownGoalConfig (h : s.tallyFits) (r : Request) : (ownGoalConfig r s).state.tallyFits := by
  simp only [Machine.ownGoalConfig]
  (repeat' split) <;> simp only [done_state, refuse_state, h]
  all_goals exact h.congr rfl

theorem byteAt_le (bs : List Byte) (k : Nat) : byteAt bs k ≤ Config.maxTally :=
  Nat.le_of_lt_succ (bs.getD k 0).isLt

theorem ownRuling (h : s.tallyFits) (r : Request) : (ownRuling r s).state.tallyFits := by
  simp only [Machine.ownRuling]
  (repeat' split) <;> simp only [done_state, refuse_state, h]
  next g a p _ _ _ _ =>
    obtain ⟨main, check, -⟩ := h g a p
    have ruled := h.setRecord (g := g) (a := a) (p := p)
      (r := { s.record g a p with state := .ruled, ruled := byteAt r.args 3 }) ⟨main, check, byteAt_le _ _⟩
    exact ruled.congr (by simp)

theorem ownPoints (h : s.tallyFits) (r : Request) {add : Tally → Alliance → Nat → Tally}
    (records : ∀ t a k, (add t a k).records = t.records) : (ownPoints r add s).state.tallyFits := by
  simp only [Machine.ownPoints]
  (repeat' split) <;> simp only [done_state, refuse_state, h]
  exact h.congr (by simp [State.setTally, records])

theorem ownerOf (h : s.tallyFits) (code : Nat) (r : Request) : (ownerOf code r s).state.tallyFits := by
  have penalty := h.ownPoints r (add := addPenalty) fun _ _ _ => rfl
  have bonus := h.ownPoints r (add := addBonus) fun _ _ _ => rfl
  unfold Machine.ownerOf
  split
  any_goals simp only [h.ownFieldReset, h.ownStage, h.ownUnstage, h.ownStart, h.ownPause, h.ownResume, h.ownAbort,
    h.ownGoalConfig, h.ownRuling, penalty, bonus]
  all_goals exact h.congr (by simp)

/-! ### The effects -/

theorem effect (h : s.tallyFits) (e : Effect s t) : t.tallyFits := by
  cases e with
  | restarted cause => exact powerOn (by simp [restart, powerOnBlocks])
  | owned code r =>
    have arrived : (mgmtArrives s).tallyFits := h.congr rfl
    exact (arrived.ownerOf code r).congr (by simp)
  | sensed q code =>
    simp only [takeSense]
    split
    · exact h
    · exact deliverSense (h.congr (by simp)) q code
  | phase k => exact (h.elapse k).passThrough
  | silence k => exact (h.elapse k).silenceExpired
  | settled g k => exact (h.elapse k).settleExpired g
  | final k => exact (h.elapse k).endFinalSettle
  | _ => exact h.congr (by simp)

theorem step (h : s.tallyFits) (hs : step s = .next t) : t.tallyFits :=
  step_keeps (fun _ _ h => h) (fun _ h => h.elapse 1) (fun _ _ h e => h.effect e) h hs

end State.tallyFits

/-- Settles O57: the invariant Bounded and the tally's records are kept by every effect, and the score is clamped. -/
theorem everyStepKeepsEveryCountInRange : Obligations.EveryStepKeepsEveryCountInRange := by
  refine ⟨fun s t queues claims counts hs => ?_, fun s t tally hs => tally.step hs, ?_, fun s a => ?_⟩
  · exact ((Bounded.of_fits queues claims counts).step hs).countsFit (counts.tally.step hs)
  · exact State.tallyFits.powerOn rfl
  · exact Nat.min_le_left _ _

end Sys2Proof.Machine
end

section
/-! SUPPORT. Offers at a full area. The choice of an area depends on joins alone, so that a drop leaves it as it was; with
that, what an offer does is followed through the AREA_DROP notices it may raise. -/

namespace Sys2Proof.Machine

variable {s t : State}

/-! ### The choice of an area after a drop -/

theorem joinedArea_congr (h : ∀ a, (t.area a).join = (s.area a).join) (c : Consumer) (l : Lane) :
    t.joinedArea c l = s.joinedArea c l := by
  unfold State.joinedArea Table.find?
  congr 1
  funext a
  exact decide_eq_decide.mpr (by rw [show (t.areas.get a).join = (s.areas.get a).join from h a])

theorem chooseArea_congr (h : ∀ a, (t.area a).join = (s.area a).join) (c : Consumer) (l : Lane) :
    t.chooseArea c l none = s.chooseArea c l none := by
  simp only [State.chooseArea, joinedArea_congr h, Option.filter_none]

theorem State.setArea_setArea (s : State) (a : AreaId) (x y : Area) : (s.setArea a x).setArea a y = s.setArea a y := by
  simp only [State.setArea, Table.set_set]

theorem full_iff {x : Area} : x.full = true ↔ x.stop - x.start ≤ x.frames.length := by
  simp [Area.full, Area.capacity]

theorem full_false_iff {x : Area} : x.full = false ↔ x.frames.length < x.stop - x.start := by
  rw [← Bool.not_eq_true, full_iff, Nat.not_le]

/-- A REPORT has been dropped at the full area a and lost (R121, R192). -/
def lostAt (a : AreaId) (s : State) : State := (s.setArea a (s.area a).countDrop).setReportsLost true

theorem lostAt_area (a b : AreaId) (s : State) :
    (lostAt a s).area b = if b = a then (s.area a).countDrop else s.area b := by
  rw [lostAt, State.area_setReportsLost_keep, State.area_setArea]

@[simp] theorem lostAt_area_self (a : AreaId) (s : State) : (lostAt a s).area a = (s.area a).countDrop := by
  rw [lostAt_area, if_pos rfl]

theorem lostAt_area_other {a b : AreaId} (h : b ≠ a) (s : State) : (lostAt a s).area b = s.area b := by
  rw [lostAt_area, if_neg h]

@[simp] theorem countDrop_full (x : Area) : x.countDrop.full = x.full := rfl

theorem chooseArea_lostAt (a : AreaId) (c : Consumer) (l : Lane) (s : State) :
    (lostAt a s).chooseArea c l none = s.chooseArea c l none := by
  refine chooseArea_congr (fun b => ?_) c l
  rw [lostAt_area]
  split
  · next h => rw [h]; rfl
  · rfl

/-! ### A REPORT at a full area -/

theorem offerReportIn_unserved {k : Nat} {l : Lane} {f : Frame} (h : s.chooseArea (.port .ml) l none = none) :
    offerReportIn (k + 1) l f s = s.setReportsLost true := by
  simp only [offerReportIn, h]

theorem offerReportIn_stored {k : Nat} {l : Lane} {f : Frame} {a : AreaId}
    (h : s.chooseArea (.port .ml) l none = some a) (room : (s.area a).full = false) :
    offerReportIn (k + 1) l f s = s.setArea a ((s.area a).store f) := by
  simp [offerReportIn, h, room]

theorem offerReportIn_notified {k : Nat} {l : Lane} {f : Frame} {a : AreaId}
    (h : s.chooseArea (.port .ml) l none = some a) (full : (s.area a).full = true) (told : (s.area a).notified = true) :
    offerReportIn (k + 1) l f s = lostAt a s := by
  simp [offerReportIn, h, full, told, lostAt]

theorem offerReportIn_untold {k : Nat} {l : Lane} {f : Frame} {a : AreaId}
    (h : s.chooseArea (.port .ml) l none = some a) (full : (s.area a).full = true) (untold : (s.area a).notified = false) :
    offerReportIn (k + 1) l f s
      = offerReportIn k .normal (areaDropFrame a (countUp Config.maxCount (s.area a).drops 1)) (lostAt a s) := by
  simp [offerReportIn, h, full, untold, lostAt, Area.countDrop]

/-- A REPORT that finds its area full is lost, whatever becomes of the notice (R192). -/
theorem offerReportIn_lost {k : Nat} {l : Lane} {f : Frame} {a : AreaId}
    (h : s.chooseArea (.port .ml) l none = some a) (full : (s.area a).full = true) :
    (offerReportIn (k + 1) l f s).reportsLost = true := by
  cases told : (s.area a).notified with
  | true => rw [offerReportIn_notified h full told]; rfl
  | false => rw [offerReportIn_untold h full told]; exact (OutputOnly.offerReportIn k _ _ _).lost rfl

/-- The AREA_DROP notice that goes to the area it tells of is dropped there too, and tells nothing more. -/
theorem offerReport_full_same {l : Lane} {f : Frame} {a : AreaId} (h : s.chooseArea (.port .ml) l none = some a)
    (full : (s.area a).full = true) (untold : (s.area a).notified = false)
    (notice : s.chooseArea (.port .ml) .normal none = some a) : offerReport l f s = lostAt a (lostAt a s) := by
  rw [offerReport, offerReportIn_untold h full untold,
    offerReportIn_notified ((chooseArea_lostAt ..).trans notice) (by simpa using full) (by simp [Area.countDrop])]

/-- The AREA_DROP notice finds room in another area. -/
theorem offerReport_full_stored {l : Lane} {f : Frame} {a b : AreaId} (h : s.chooseArea (.port .ml) l none = some a)
    (full : (s.area a).full = true) (untold : (s.area a).notified = false)
    (notice : s.chooseArea (.port .ml) .normal none = some b) (other : a ≠ b) (room : (s.area b).full = false) :
    offerReport l f s = (lostAt a s).setArea b
      ((s.area b).store (areaDropFrame a (countUp Config.maxCount (s.area a).drops 1))) := by
  have same := lostAt_area_other other.symm s
  rw [offerReport, offerReportIn_untold h full untold,
    offerReportIn_stored ((chooseArea_lostAt ..).trans notice) (same ▸ room), same]

/-- The AREA_DROP notice finds another area full: it is dropped there, and once more where it raises a notice. -/
theorem offerReport_full_full {l : Lane} {f : Frame} {a b : AreaId} (h : s.chooseArea (.port .ml) l none = some a)
    (full : (s.area a).full = true) (untold : (s.area a).notified = false)
    (notice : s.chooseArea (.port .ml) .normal none = some b) (other : a ≠ b) (full' : (s.area b).full = true) :
    offerReport l f s = if (s.area b).notified then lostAt b (lostAt a s) else lostAt b (lostAt b (lostAt a s)) := by
  have same := lostAt_area_other other.symm s
  have chosen : (lostAt a s).chooseArea (.port .ml) .normal none = some b :=
    (chooseArea_lostAt ..).trans notice
  rw [offerReport, offerReportIn_untold h full untold]
  cases told : (s.area b).notified with
  | true => rw [offerReportIn_notified chosen (same ▸ full') (same ▸ told), if_pos rfl]
  | false =>
    rw [offerReportIn_untold chosen (same ▸ full') (same ▸ told),
      offerReportIn_notified ((chooseArea_lostAt ..).trans chosen) (by rwa [lostAt_area_self, countDrop_full, same])
        (by rw [lostAt_area_self]; rfl), if_neg Bool.false_ne_true]

/-- A drop at an area whose flag is set moves its drop count alone. -/
theorem countDrop_of_notified {x : Area} (h : x.notified = true) :
    x.countDrop = { x with drops := countUp Config.maxCount x.drops 1 } := by
  simp [Area.countDrop, ← h]

theorem lostAt_lostAt (a : AreaId) (s : State) :
    lostAt a (lostAt a s) = (s.setArea a (s.area a).countDrop.countDrop).setReportsLost true := by
  rw [lostAt, lostAt_area_self]
  simp only [lostAt, State.setArea, State.setReportsLost, Table.set_set]

/-- An offer to a radio port at a full area is dropped there, and the drop told where the area's flag was clear. -/
theorem offerRadio_full {k : RadioPort} {l : Lane} {steer : Option AreaId} {f : Frame} {a : AreaId}
    (h : s.chooseArea (.port (.rl k)) l steer = some a) (full : (s.area a).full = true) :
    offerRadio k l steer f s = if (s.area a).notified then s.setArea a (s.area a).countDrop
      else offerReport .normal (areaDropFrame a (countUp Config.maxCount (s.area a).drops 1))
        (s.setArea a (s.area a).countDrop) := by
  simp [offerRadio, h, full, dropAt, Area.countDrop]

/-! ### The statement -/

/-- Settles O9: a REPORT is followed through the areas its drop notices come to, a frame to a radio port through the one
area chosen for it, and the answers and notices are offers of the frames of their tables. -/
theorem offeredFramesAreStoredOrDropped : Obligations.OfferedFramesAreStoredOrDropped := by
  refine ⟨fun lane f s => ⟨fun h => offerReportIn_unserved h, fun a h room => ?_, fun a h room => ?_⟩,
    fun k lane steer f s => ⟨fun h => offerRadio_unserved h, fun a h room => ?_, fun a h room => ?_⟩,
    fun n s => ⟨fun a => rfl, fun k a => rfl, fun x => rfl⟩⟩
  · exact offerReport_stored h (full_false_iff.mpr room)
  · have full := full_iff.mpr room
    refine ⟨offerReportIn_lost h full, fun told => ?_, fun untold notice => ?_, fun b untold notice other room' => ?_,
      fun b untold notice other room' => ?_⟩
    · rw [offerReport, offerReportIn_notified h full told, lostAt, countDrop_of_notified told]
      rfl
    · rw [offerReport_full_same h full untold notice, lostAt_lostAt]
      rfl
    · rw [offerReport_full_stored h full untold notice other (full_false_iff.mpr room')]
      rfl
    · rw [offerReport_full_full h full untold notice other (full_iff.mpr room')]
      have same := lostAt_area_other other.symm s
      cases told : (s.area b).notified with
      | true =>
        rw [if_pos rfl, lostAt, same]
        rfl
      | false =>
        rw [if_neg Bool.false_ne_true, lostAt_lostAt, same]
        rfl
  · exact offerRadio_stored h (full_false_iff.mpr room)
  · rw [offerRadio_full h (full_iff.mpr room)]
    split
    · rfl
    · rfl

end Sys2Proof.Machine
end

section
/-! SUPPORT. The bytes of deliveries: what the framer accepts, frames and messages read back from their bytes, and the port
that a dropped delivery leaves. -/

namespace Sys2Proof

/-! ### Bytes -/

@[simp] theorem byte_toNat (k : Nat) : (byte k).toNat = k % 256 := by simp [byte]

theorem byte_toNat_of_lt {k : Nat} (h : k < 256) : (byte k).toNat = k := by
  rw [byte_toNat, Nat.mod_eq_of_lt h]

/-- Two bytes of a 16-bit value are the value again. -/
theorem word16_bytes16 (v : BitVec 16) : word16 (v.extractLsb' 8 8) (v.extractLsb' 0 8) = v := by
  unfold word16
  ext i hi
  simp only [BitVec.getElem_append, BitVec.getElem_extractLsb']
  split
  · simp [hi]
  · simp [show 8 + (i - 8) = i by omega, hi]

theorem ofCode_code (k : Kind) : Kind.ofCode k.code = some k := by cases k <;> rfl

theorem ofCode_isSome {c : Nat} : (Kind.ofCode c).isSome = true ↔ 1 ≤ c ∧ c ≤ 11 := by
  unfold Kind.ofCode
  split <;> simp_all
  omega

theorem kindByte_toNat (k : Kind) : (kindByte k).toNat = k.code * 16 + 1 := by cases k <;> rfl

/-! ### What the framer accepts (R2, R6) -/

theorem validNumber_iff {n : BitVec 6} : validNumber n = true ↔ n.toNat ≤ 32 ∨ n.toNat = 63 := by
  simp [validNumber]

/-- A station number of the header that fits its six bits. -/
theorem validNumber_truncate {b : Byte} (h : b.toNat < 64) :
    validNumber (b.truncate 6) = true ↔ b.toNat ≤ 32 ∨ b.toNat = 63 := by
  rw [validNumber_iff]
  simp [Nat.mod_eq_of_lt h]

theorem FrameBody.acceptable_iff {f : FrameBody} :
    f.acceptable = true ↔ validNumber f.source = true ∧ validNumber f.destination = true ∧ f.payload.length ≤ 48 := by
  simp only [FrameBody.acceptable, Bool.and_eq_true, decide_eq_true_eq, and_assoc]
  rfl

/-- The frame that the bytes of a delivery spell, whatever its checks say. -/
def bodyOf (b1 b2 b3 b4 b5 : Byte) (rest : List Byte) : FrameBody :=
  { source := b1.truncate 6, destination := b2.truncate 6, sequence := b3, label := b5, payload := rest.take b4.toNat }

/-- The checks of R6 on a delivery with a whole header. -/
def Framed (b0 b1 b2 b3 b4 b5 : Byte) (rest : List Byte) : Prop :=
  b4.toNat ≤ 48 ∧ rest.length = b4.toNat + 2 ∧ b0.toNat % 16 = 1
    ∧ (b1.toNat ≤ 32 ∨ b1.toNat = 63) ∧ (b2.toNat ≤ 32 ∨ b2.toNat = 63)
    ∧ rest.drop b4.toNat = bytes16 (crc ([b0, b1, b2, b3, b4, b5] ++ rest.take b4.toNat))

/-- The checks as parseFrame makes them are the checks of R6. -/
theorem framed_iff {b0 b1 b2 b3 b4 b5 : Byte} {rest : List Byte} :
    (b4.toNat ≤ Config.maxPayload ∧ (b0 :: b1 :: b2 :: b3 :: b4 :: b5 :: rest).length = b4.toNat + 8
        ∧ b0.toNat % 16 = 1 ∧ b1.toNat < 64 ∧ b2.toNat < 64 ∧ (bodyOf b1 b2 b3 b4 b5 rest).acceptable = true
        ∧ rest.drop b4.toNat = bytes16 (crc ((b0 :: b1 :: b2 :: b3 :: b4 :: b5 :: rest).take (b4.toNat + 6))))
      ↔ Framed b0 b1 b2 b3 b4 b5 rest := by
  have front : (b0 :: b1 :: b2 :: b3 :: b4 :: b5 :: rest).take (b4.toNat + 6)
      = [b0, b1, b2, b3, b4, b5] ++ rest.take b4.toNat := rfl
  rw [front, FrameBody.acceptable_iff]
  simp only [Framed, Config.maxPayload, List.length_cons]
  constructor
  · rintro ⟨long, whole, version, h1, h2, ⟨source, destination, -⟩, check⟩
    exact ⟨long, by omega, version, (validNumber_truncate h1).mp source, (validNumber_truncate h2).mp destination, check⟩
  · rintro ⟨long, whole, version, source, destination, check⟩
    have h1 : b1.toNat < 64 := by omega
    have h2 : b2.toNat < 64 := by omega
    exact ⟨long, by omega, version, h1, h2, ⟨(validNumber_truncate h1).mpr source,
      (validNumber_truncate h2).mpr destination, (List.length_take_le _ _).trans long⟩, check⟩

/-- A delivery with a whole header is the frame its bytes spell, when its checks pass. -/
theorem parseFrame_eq_some {b0 b1 b2 b3 b4 b5 : Byte} {rest : List Byte} {f : Frame} :
    parseFrame (b0 :: b1 :: b2 :: b3 :: b4 :: b5 :: rest) = some f ↔
      Kind.ofCode (b0.toNat / 16) = some f.kind ∧ f.toFrameBody = bodyOf b1 b2 b3 b4 b5 rest
        ∧ Framed b0 b1 b2 b3 b4 b5 rest := by
  rw [← framed_iff]
  obtain ⟨body, kind⟩ := f
  unfold parseFrame
  simp only
  split
  · next code => simp [code]
  · next k code =>
    rw [code]
    split
    · next checks =>
      simp only [Option.some.injEq, Frame.mk.injEq]
      constructor
      · rintro ⟨rfl, rfl⟩
        exact ⟨rfl, rfl, checks⟩
      · rintro ⟨rfl, rfl, -⟩
        exact ⟨rfl, rfl⟩
    · next checks =>
      constructor
      · exact nofun
      · rintro ⟨-, -, h⟩
        exact absurd h checks

/-- A delivery without a whole header is none. -/
theorem parseFrame_short {bs : List Byte} (h : bs.length < 6) : parseFrame bs = none := by
  unfold parseFrame
  split
  · simp only [List.length_cons] at h; omega
  · rfl

/-- A delivery of six bytes or more, in the bytes of its header and the rest. -/
theorem exists_header {bs : List Byte} (h : 6 ≤ bs.length) :
    ∃ b0 b1 b2 b3 b4 b5 rest, bs = b0 :: b1 :: b2 :: b3 :: b4 :: b5 :: rest := by
  match bs, h with
  | b0 :: b1 :: b2 :: b3 :: b4 :: b5 :: rest, _ => exact ⟨b0, b1, b2, b3, b4, b5, rest, rfl⟩

/-- The framer accepts a delivery whose kind code is one of the table and whose checks pass. -/
theorem parseFrame_isSome {b0 b1 b2 b3 b4 b5 : Byte} {rest : List Byte} :
    (parseFrame (b0 :: b1 :: b2 :: b3 :: b4 :: b5 :: rest)).isSome = true ↔
      (1 ≤ b0.toNat / 16 ∧ b0.toNat / 16 ≤ 11) ∧ Framed b0 b1 b2 b3 b4 b5 rest := by
  rw [Option.isSome_iff_exists, ← ofCode_isSome, Option.isSome_iff_exists]
  constructor
  · rintro ⟨f, h⟩
    obtain ⟨kind, -, checks⟩ := parseFrame_eq_some.mp h
    exact ⟨⟨_, kind⟩, checks⟩
  · rintro ⟨⟨kind, code⟩, checks⟩
    exact ⟨{ toFrameBody := bodyOf b1 b2 b3 b4 b5 rest, kind }, parseFrame_eq_some.mpr ⟨code, rfl, checks⟩⟩

/-- What the framer has accepted is acceptable (R6). -/
theorem acceptable_of_parseFrame {bs : List Byte} {f : Frame} (h : parseFrame bs = some f) : f.acceptable = true := by
  have long : 6 ≤ bs.length := by
    by_contra short
    rw [parseFrame_short (by omega)] at h
    exact nomatch h
  obtain ⟨b0, b1, b2, b3, b4, b5, rest, rfl⟩ := exists_header long
  obtain ⟨-, body, checks⟩ := parseFrame_eq_some.mp h
  rw [body]
  exact (framed_iff.mpr checks).2.2.2.2.2.1

/-- An acceptable frame is read back from the bytes it is sent as. -/
theorem parseFrame_wire {f : Frame} (h : f.acceptable = true) : parseFrame f.wire = some f := by
  obtain ⟨source, destination, long⟩ := FrameBody.acceptable_iff.mp h
  have length : (byte f.payload.length).toNat = f.payload.length := byte_toNat_of_lt (by omega)
  have six : ∀ n : BitVec 6, (n.zeroExtend 8).toNat = n.toNat := fun n => by
    simp [Nat.mod_eq_of_lt (show n.toNat < 256 from n.isLt.trans (by decide))]
  have back : ∀ n : BitVec 6, (n.zeroExtend 8).truncate 6 = n := fun n => by
    apply BitVec.eq_of_toNat_eq
    rw [BitVec.truncate, BitVec.toNat_setWidth, six, Nat.mod_eq_of_lt n.isLt]
  have code := ofCode_code f.kind
  rw [Frame.wire, Frame.content]
  simp only [List.cons_append, List.nil_append]
  refine parseFrame_eq_some.mpr ⟨?_, ?_, ?_⟩
  · rw [kindByte_toNat, show (f.kind.code * 16 + 1) / 16 = f.kind.code by omega, code]
  · simp [bodyOf, length, back]
  · refine ⟨length.trans_le long, ?_, ?_, ?_, ?_, ?_⟩
    · simp [length, bytes16]
    · rw [kindByte_toNat]; omega
    · rw [six]; exact validNumber_iff.mp source
    · rw [six]; exact validNumber_iff.mp destination
    · simp [length]

/-! ### Commands from bytes -/

theorem deliveryCommand_wire {f : Frame} (h : f.acceptable = true) (p : Port) :
    deliveryCommand p f.wire = frameCommand p f := by
  simp only [deliveryCommand, parseFrame_wire h]

/-- A frame that carries a MGMT payload of 48 bytes at most is read back as the command of that payload. -/
theorem deliveryCommand_mgmtFrame (sequence : Byte) {payload : List Byte} (h : payload.length ≤ 48) :
    deliveryCommand .ml (mgmtFrame sequence payload).wire = mgmtCommand sequence payload := by
  have accepted : (mgmtFrame sequence payload).acceptable = true :=
    FrameBody.acceptable_iff.mpr ⟨rfl, rfl, h⟩
  rw [deliveryCommand_wire accepted]
  simp [frameCommand, gateAccepts, mgmtFrame]

/-- The command of a request code carries that code and request. -/
theorem request?_of_requestCommand {code : Nat} {r : Request} {i : Instr} (h : requestCommand code r = some i) :
    i.request? = some (code, r) := by
  unfold requestCommand at h
  split at h
  case h_19 =>
    injection h with h
    rw [← h]
    split <;> rfl
  case h_47 => exact nomatch h
  all_goals
    injection h with h
    rw [← h]
    rfl

/-- Every code that names a command stands in the catalogue. -/
theorem requestCommand_unknown {code : Nat} (h : argumentLength code = none) (r : Request) :
    requestCommand code r = none := by
  unfold requestCommand
  split
  case h_47 => rfl
  all_goals exact nomatch h

/-- A well-formed command that carries a request is the command of its code, or one for a code outside the catalogue. -/
theorem requestCommand_of_request {i : Instr} {code : Nat} {r : Request} (h : i.request? = some (code, r))
    (w : i.wellFormed = true) :
    code < 256 ∧ r.args.length ≤ 46 ∧ (requestCommand code r).getD (.unknownRequest (byte code) r) = i := by
  cases i with
  | partner x | partnerRemove x =>
    simp only [Instr.request?, Option.some.injEq, Prod.mk.injEq] at h
    obtain ⟨rfl, rfl⟩ := h
    simp only [Instr.wellFormed, requestOk, Bool.and_eq_true, decide_eq_true_eq, Bool.not_eq_true'] at w
    exact ⟨by decide, w.1, by simp [requestCommand, w.2]⟩
  | unknownRequest x y =>
    simp only [Instr.request?, Option.some.injEq, Prod.mk.injEq] at h
    obtain ⟨rfl, rfl⟩ := h
    simp only [Instr.wellFormed, requestOk, Bool.and_eq_true, decide_eq_true_eq, Option.isNone_iff_eq_none] at w
    exact ⟨x.isLt, w.1, by simp [requestCommand_unknown w.2, byte]⟩
  | _ =>
    simp only [Instr.request?, Option.some.injEq, Prod.mk.injEq, reduceCtorEq] at h <;>
      obtain ⟨rfl, rfl⟩ := h <;> exact ⟨by decide, of_decide_eq_true w, rfl⟩

/-- The bytes a request's command comes with. -/
theorem delivery?_of_request {i : Instr} {code : Nat} {r : Request} (h : i.request? = some (code, r)) :
    i.delivery? = some (.ml, (mgmtFrame r.sequence (byte code :: r.tag :: r.args)).wire) := by
  cases i <;> simp only [Instr.request?, Option.some.injEq, Prod.mk.injEq, reduceCtorEq] at h <;>
    obtain ⟨rfl, rfl⟩ := h <;> rfl

theorem deliveryCommand_of_request {i : Instr} {code : Nat} {r : Request} (h : i.request? = some (code, r))
    (w : i.wellFormed = true) :
    deliveryCommand .ml (mgmtFrame r.sequence (byte code :: r.tag :: r.args)).wire = i := by
  obtain ⟨fits, short, command⟩ := requestCommand_of_request h w
  rw [deliveryCommand_mgmtFrame _ (by simp only [List.length_cons]; omega)]
  simpa only [mgmtCommand, byte_toNat_of_lt fits] using command

theorem deliveryCommand_of_delivery {i : Instr} {p : Port} {bs : List Byte} (w : i.wellFormed = true)
    (h : i.delivery? = some (p, bs)) : deliveryCommand p bs = i := by
  cases hr : i.request? with
  | some x =>
    obtain ⟨code, r⟩ := x
    rw [delivery?_of_request hr] at h
    cases h
    exact deliveryCommand_of_request hr w
  | none =>
    cases i with
    | frameDiscard q bytes =>
      cases h
      simp only [Instr.wellFormed, Option.isNone_iff_eq_none] at w
      simp only [deliveryCommand, w]
    | portGateDrop q f =>
      cases h
      simp only [Instr.wellFormed, Bool.and_eq_true, Bool.not_eq_true'] at w
      rw [deliveryCommand_wire w.1]
      simp [frameCommand, w.2]
    | mgmtShort sequence payload =>
      cases h
      have short : payload.length < 2 := of_decide_eq_true w
      rw [deliveryCommand_mgmtFrame _ (by omega)]
      unfold mgmtCommand
      split
      · simp only [List.length_cons] at short; omega
      · rfl
    | join q f | beacon q f | pilot q f | telem q f | element q f | claim q f | release q f =>
      cases h
      simp only [Instr.wellFormed, stationFrameOk, Bool.and_eq_true, decide_eq_true_eq] at w
      rw [deliveryCommand_wire w.2]
      cases p with
      | ml => exact absurd rfl w.1
      | rl k => rfl
    | _ => simp [Instr.delivery?, hr] at h

/-! ### Chain messages -/

theorem foldl_add (bs : List Byte) (a : Byte) : bs.foldl (· + ·) a = a + bs.foldl (· + ·) 0 := by
  induction bs generalizing a with
  | nil => simp
  | cons b bs ih => rw [List.foldl_cons, List.foldl_cons, ih, ih (0 + b)]; simp [BitVec.add_assoc]

/-- The eight bytes of a message sum to 0 modulo 256 (R12). -/
theorem chainBytes_sum (type position tag code : Byte) (value : BitVec 16) :
    (chainBytes type position tag code value).foldl (· + ·) 0 = 0 := by
  rw [chainBytes, List.foldl_append, chainCheck]
  simp

/-- What a message of eight bytes that sum to 0 is, by its type and code (R13). -/
theorem chainCommand_chainBytes {e : ChainEnd} {type position tag code : Byte} {value : BitVec 16}
    (h : (positionOf position).isSome = true) :
    chainCommand e (chainBytes type position tag code value) =
      if type = 0x02 ∧ code.toNat ≤ 2 then .reply e position tag code value
      else if type = 0x03 ∧ code.toNat % 16 ≠ 0 then .sense e position code
      else if type = 0x05 ∧ code.toNat ≤ 6 then .probeReply e position code
      else .chainMessageDiscard e (chainBytes type position tag code value) := by
  have sum := chainBytes_sum type position tag code value
  have found : positionOf position ≠ none := fun c => by simp [c] at h
  simp only [chainBytes, bytes16, List.cons_append, List.nil_append] at sum ⊢
  simp only [chainCommand, sum, found, ne_eq, not_true, or_self, if_false, word16_bytes16]

theorem chainCommand_of_message {i : Instr} {e : ChainEnd} {bs : List Byte} (w : i.wellFormed = true)
    (h : i.message? = some (e, bs)) : chainCommand e bs = i := by
  cases i with
  | reply d position tag status value =>
    cases h
    simp only [Instr.wellFormed, Bool.and_eq_true, decide_eq_true_eq] at w
    rw [chainCommand_chainBytes w.1, if_pos ⟨rfl, w.2⟩]
  | sense d position code =>
    cases h
    simp only [Instr.wellFormed, Bool.and_eq_true, decide_eq_true_eq] at w
    rw [chainCommand_chainBytes w.1, if_neg (fun c => absurd c.1 (by decide)), if_pos ⟨rfl, w.2⟩]
  | probeReply d position nodeKind =>
    cases h
    simp only [Instr.wellFormed, Bool.and_eq_true, decide_eq_true_eq] at w
    rw [chainCommand_chainBytes w.1, if_neg (fun c => absurd c.1 (by decide)),
      if_neg (fun c => absurd c.1 (by decide)), if_pos ⟨rfl, w.2⟩]
  | chainMessageDiscard d bytes =>
    cases h
    exact of_decide_eq_true w
  | _ => exact nomatch h

namespace Machine

/-! ### The effect of the bytes -/

theorem exec_mgmtCommand (sequence : Byte) (payload : List Byte) (s : State) :
    exec (mgmtCommand sequence payload) s = takePayload sequence payload s := by
  match payload with
  | [] => rfl
  | [_] => rfl
  | code :: tag :: args =>
    change exec ((requestCommand code.toNat { sequence, tag, args }).getD _) s = _
    cases h : requestCommand code.toNat { sequence, tag, args } with
    | some i => exact exec_of_request (request?_of_requestCommand h) s
    | none => rfl

/-- An accepted frame has the effect of the command that it is. -/
theorem exec_frameCommand {f : Frame} (h : f.acceptable = true) (p : Port) (s : State) :
    exec (frameCommand p f) s = arrival p f s := by
  obtain ⟨body, kind⟩ := f
  cases gate : gateAccepts p { toFrameBody := body, kind } with
  | false => simp only [frameCommand, gate]; rfl
  | true =>
    simp only [frameCommand, gate, if_true]
    cases kind
    case mgmt =>
      cases p with
      | ml => rw [exec_mgmtCommand, arrival, h, gate]; rfl
      | rl k => exact nomatch gate
    all_goals rfl

/-- A message's command is a REPLY, a SENSE, a PROBE_REPLY or the discard of its bytes. -/
theorem chainCommand_cases (e : ChainEnd) (bs : List Byte) :
    (∃ position tag status value, chainCommand e bs = .reply e position tag status value)
      ∨ (∃ position code, chainCommand e bs = .sense e position code)
      ∨ (∃ position nodeKind, chainCommand e bs = .probeReply e position nodeKind)
      ∨ chainCommand e bs = .chainMessageDiscard e bs := by
  unfold chainCommand
  (repeat' split)
  · exact .inr (.inr (.inr rfl))
  · exact .inl ⟨_, _, _, _, rfl⟩
  · exact .inr (.inl ⟨_, _, rfl⟩)
  · exact .inr (.inr (.inl ⟨_, _, rfl⟩))
  · exact .inr (.inr (.inr rfl))
  · exact .inr (.inr (.inr rfl))

theorem exec_chainMessageDiscard (e : ChainEnd) (bs : List Byte) (s : State) :
    exec (.chainMessageDiscard e bs) s = exec (chainCommand e bs) s := by
  change execChainMessageDiscard e bs s = _
  rcases chainCommand_cases e bs with ⟨_, _, _, _, h⟩ | ⟨_, _, h⟩ | ⟨_, _, h⟩ | h
  · simp only [execChainMessageDiscard, h]; rfl
  · simp only [execChainMessageDiscard, h]; rfl
  · simp only [execChainMessageDiscard, h]; rfl
  · rw [h]; rfl

theorem exec_frameDiscard (p : Port) (bs : List Byte) (s : State) :
    exec (.frameDiscard p bs) s = exec (deliveryCommand p bs) s := by
  change execFrameDiscard p bs s = _
  unfold execFrameDiscard deliveryCommand
  cases h : parseFrame bs with
  | none => simp only [exec, execFrameDiscard, h]
  | some f => exact (exec_frameCommand (acceptable_of_parseFrame h) p s).symm

/-- Settles O60: frames and messages are read back by the layout of their bytes, and a discard has the effect of the command
that its bytes spell. -/
theorem bytesSpellTheirCommands : Obligations.BytesSpellTheirCommands :=
  ⟨fun _ accepted => parseFrame_wire accepted, fun _ _ _ => deliveryCommand_of_delivery,
    fun _ _ _ => chainCommand_of_message, exec_frameDiscard, exec_chainMessageDiscard⟩

/-! ### A dropped delivery -/

theorem State.setPort_setPort (s : State) (p : Port) (x y : PortState) : (s.setPort p x).setPort p y = s.setPort p y := by
  cases p with
  | ml => rfl
  | rl k => simp only [State.setPort, Table.set_set]

/-- A dropped delivery leaves its framer IDLE and counts one discard (R6, R7). -/
theorem discardArrival_eq (p : Port) (s : State) :
    discardArrival p s = s.setPort p
      { s.port p with receive := .idle, discards := min 65535 ((s.port p).discards + 1) } := by
  rw [discardArrival, countDiscard, receiveIdle, State.port_setPort_self, State.setPort_setPort]
  rfl

theorem arrival_refused {p : Port} {f : Frame} (h : gateAccepts p f = false) (s : State) :
    arrival p f s = .next (discardArrival p s) := by
  simp [arrival, h]

/-- The conditions of R6 on the bytes of a delivery as they stand. -/
theorem parseFrame_isSome_iff (bs : List Byte) : (parseFrame bs).isSome = true ↔
    8 ≤ bs.length ∧ byteAt bs 4 ≤ 48 ∧ bs.length = byteAt bs 4 + 8
      ∧ bs.drop (bs.length - 2) = bytes16 (crc (bs.take (bs.length - 2)))
      ∧ byteAt bs 0 % 16 = 1 ∧ 1 ≤ byteAt bs 0 / 16 ∧ byteAt bs 0 / 16 ≤ 11
      ∧ (byteAt bs 1 ≤ 32 ∨ byteAt bs 1 = 63) ∧ (byteAt bs 2 ≤ 32 ∨ byteAt bs 2 = 63) := by
  rcases Nat.lt_or_ge bs.length 6 with short | long
  · rw [parseFrame_short short]
    constructor
    · exact nofun
    · rintro ⟨h, -⟩
      omega
  · obtain ⟨b0, b1, b2, b3, b4, b5, rest, rfl⟩ := exists_header long
    rw [parseFrame_isSome]
    simp only [byteAt, List.getD_cons_zero, List.getD_cons_succ, List.length_cons, Framed]
    constructor
    · rintro ⟨⟨low, high⟩, fits, whole, version, source, destination, check⟩
      have front : rest.length + 1 + 1 + 1 + 1 + 1 + 1 - 2 = b4.toNat + 6 := by omega
      exact ⟨by omega, fits, by omega, front ▸ check, version, low, high, source, destination⟩
    · rintro ⟨-, fits, whole, check, version, low, high, source, destination⟩
      have front : rest.length + 1 + 1 + 1 + 1 + 1 + 1 - 2 = b4.toNat + 6 := by omega
      rw [front] at check
      exact ⟨⟨low, high⟩, fits, by omega, version, source, destination, check⟩

/-- Settles O22: the framer's checks are those of parseFrame, and what it or the port gate drops is a discarded arrival. -/
theorem framerAndPortGateJudgeDeliveries : Obligations.FramerAndPortGateJudgeDeliveries := by
  refine ⟨⟨parseFrame_isSome_iff, by decide +kernel⟩, fun p bs s h => ?_, fun p f s _ refused => ?_⟩
  · change execFrameDiscard p bs s = _
    rw [execFrameDiscard, h, ← discardArrival_eq]
  · change arrival p f s = _
    rw [← discardArrival_eq]
    refine arrival_refused ?_ s
    obtain ⟨body, kind⟩ := f
    cases p with
    | rl k =>
      cases kind with
      | mgmt | answer | arena | report => rfl
      | _ => exact refused.elim
    | ml =>
      cases kind with
      | mgmt => simpa [gateAccepts, imp_iff_not_or] using refused
      | _ => rfl

end Machine
end Sys2Proof
end

section
/-! SUPPORT. The ports and the chain ends: what they receive, what they take to send, and the messages that an end sends or
discards. -/

namespace Sys2Proof

theorem Port.ofCode_code (p : Port) : Port.ofCode p.code = some p := by
  cases p with
  | ml => rfl
  | rl k => rw [Port.code, Port.ofCode, if_neg (by omega), ofNum_of k rfl, Option.map_some]

theorem Port.code_le (p : Port) : p.code ≤ 4 := by
  cases p with
  | ml => exact Nat.zero_le _
  | rl k => exact k.isLt

theorem Port.ofCode_of_lt {c : Nat} (h : 4 < c) : Port.ofCode c = none := by
  rw [Port.ofCode, if_neg (by omega), ofNum_bad (.inr h), Option.map_none]

theorem positionOf_eq_none {b : Byte} (h : b.toNat = 0 ∨ 32 < b.toNat) : positionOf b = none := ofNum_bad (by omega)

theorem byte_eq_iff {b : Byte} {k : Nat} (h : k < 256) : b = byte k ↔ b.toNat = k := by
  rw [← BitVec.toNat_inj, byte_toNat_of_lt h]

namespace Machine

variable {s : State}

/-! ### The chain ends -/

/-- Bytes that fail a check of R13 or R14 spell no message. -/
theorem chainCommand_of_bad {e : ChainEnd} {bytes : List Byte}
    (bad : bytes.length ≠ 8 ∨ (bytes.foldl (· + ·) 0) ≠ 0 ∨ byteAt bytes 1 = 0 ∨ 32 < byteAt bytes 1
      ∨ ¬(byteAt bytes 0 = 2 ∧ byteAt bytes 3 ≤ 2 ∨ byteAt bytes 0 = 3 ∧ byteAt bytes 3 % 16 ≠ 0
          ∨ byteAt bytes 0 = 5 ∧ byteAt bytes 3 ≤ 6)) :
    chainCommand e bytes = .chainMessageDiscard e bytes := by
  unfold chainCommand
  split
  · next type position tag code hi lo spare check =>
    have two : type = 0x02 ↔ type.toNat = 2 := byte_eq_iff (by decide)
    have three : type = 0x03 ↔ type.toNat = 3 := byte_eq_iff (by decide)
    have five : type = 0x05 ↔ type.toNat = 5 := byte_eq_iff (by decide)
    simp only [byteAt, List.getD_cons_zero, List.getD_cons_succ] at bad
    simp only [two, three, five]
    split
    · rfl
    · next passed =>
      obtain ⟨sum, found⟩ := not_or.mp passed
      rcases bad with short | bad | zero | high | bad
      · exact absurd rfl short
      · exact absurd bad sum
      · exact absurd (positionOf_eq_none (.inl zero)) found
      · exact absurd (positionOf_eq_none (.inr high)) found
      · rw [if_neg fun h => bad (.inl h), if_neg fun h => bad (.inr (.inl h)), if_neg fun h => bad (.inr (.inr h))]
  · rfl

theorem ChainSide.put_eq (x : ChainSide) (m : ChainMessage) :
    x.put m = if x.onLine = none ∧ x.waiting = [] then { onLine := some m, waiting := [] }
      else { x with waiting := x.waiting ++ [m] } := by
  obtain ⟨onLine, waiting⟩ := x
  cases onLine <;> cases waiting <;> rfl

theorem ChainSide.advance_cons {x : ChainSide} {m : ChainMessage} {ms : List ChainMessage} (h : x.waiting = m :: ms) :
    x.advance = { onLine := some m, waiting := ms } := by
  rw [advance, h]
  rfl

theorem ChainSide.advance_nil {x : ChainSide} (h : x.waiting = []) : x.advance = { onLine := none, waiting := [] } := by
  rw [advance, h]
  rfl

theorem exec_chainSendNext (e : ChainEnd) (s : State) :
    exec (.chainSendNext e) s = .next (s.setSide e (s.side e).advance) := rfl

/-- Settles O45: an end sends in the order of its messages, and a message that fails a check of its arrival changes
nothing. -/
theorem chainEndsSendInOrderAndDiscard : Obligations.ChainEndsSendInOrderAndDiscard := by
  refine ⟨fun e s => ⟨fun x xs h => ?_, fun h => ?_⟩, fun e bytes s bad => ?_, fun e m s => ?_⟩
  · rw [exec_chainSendNext, ChainSide.advance_cons h]
  · rw [exec_chainSendNext, ChainSide.advance_nil h]
  · change execChainMessageDiscard e bytes s = _
    rw [execChainMessageDiscard, chainCommand_of_bad bad]
  · exact congrArg (s.setSide e) (ChainSide.put_eq _ m)

/-! ### LINK_RESET of a frame port -/

theorem ownLinkReset_port {r : Request} {p : Port} (h : byteAt r.args 0 = p.code) (s : State) :
    ownLinkReset r s = done (s.setPort p { s.port p with receive := .idle, transmitter := none }) := by
  have code := p.code_le
  unfold ownLinkReset
  split
  · omega
  · omega
  · rw [h, Port.ofCode_code]
    rfl

theorem ownLinkReset_bad {r : Request} (h : 6 < byteAt r.args 0) (s : State) :
    ownLinkReset r s = refuse .badArgument s := by
  unfold ownLinkReset
  split
  · omega
  · omega
  · rw [Port.ofCode_of_lt (by omega)]

theorem exec_linkReset {r : Request} (long : 1 ≤ r.args.length) (fits : r.args.length ≤ 46) (s : State) :
    exec (.linkReset r) s = .next (reply 0x05 r (ownLinkReset r (mgmtArrives s))) := takeRequest_taken fits long

/-! ### What a transmitter takes -/

/-- An area joined to the consumer at the lane that holds a frame. -/
def State.Filled (s : State) (c : Consumer) (l : Lane) (a : AreaId) : Prop :=
  s.joinedArea c l = some a ∧ (s.area a).frames ≠ []

/-- The area of a lane that a consumer may take from. -/
def State.filledArea (s : State) (c : Consumer) (l : Lane) : Option AreaId :=
  (s.joinedArea c l).filter fun a => !(s.area a).frames.isEmpty

theorem nextArea_eq (s : State) (c : Consumer) :
    s.nextArea c = (s.filledArea c .urgent).or ((s.filledArea c .normal).or (s.filledArea c .bulk)) := rfl

theorem filledArea_eq_some {c : Consumer} {l : Lane} {a : AreaId} : s.filledArea c l = some a ↔ s.Filled c l a := by
  simp [State.filledArea, State.Filled, Option.filter_eq_some_iff]

theorem filledArea_eq_none {c : Consumer} {l : Lane} : s.filledArea c l = none ↔ ∀ a, ¬s.Filled c l a := by
  simp only [Option.eq_none_iff_forall_ne_some, ne_eq, filledArea_eq_some]

/-- A consumer takes from the area of its first lane that holds a frame. -/
theorem nextArea_eq_some {c : Consumer} {l : Lane} {a : AreaId} (h : s.Filled c l a)
    (first : ∀ l' b, l'.code < l.code → ¬s.Filled c l' b) : s.nextArea c = some a := by
  have before : ∀ l', l'.code < l.code → s.filledArea c l' = none := fun l' lt =>
    filledArea_eq_none.mpr fun b => first l' b lt
  rw [nextArea_eq]
  cases l with
  | urgent => rw [filledArea_eq_some.mpr h, Option.some_or]
  | normal => rw [before .urgent (by decide), filledArea_eq_some.mpr h, Option.none_or, Option.some_or]
  | bulk => rw [before .urgent (by decide), before .normal (by decide), filledArea_eq_some.mpr h, Option.none_or,
      Option.none_or]

theorem nextArea_eq_none {c : Consumer} (h : ∀ l a, ¬s.Filled c l a) : s.nextArea c = none := by
  simp only [nextArea_eq, filledArea_eq_none.mpr (h _), Option.or_none]

theorem Frame.sent_eq (f : Frame) :
    Frame.sent f = if f.kind = .pilot ∨ f.kind = .telem then { f with label := 0 } else f := by
  obtain ⟨body, kind⟩ := f
  cases kind <;> rfl

theorem takeReady_ready {p : Port} (idle : (s.port p).transmitter = none) (up : (s.port p).line = .up) :
    s.takeReady p = s.nextArea (.port p) := if_pos ⟨idle, up⟩

theorem takeReady_held {p : Port} (h : (s.port p).transmitter ≠ none ∨ (s.port p).line = .down) :
    s.takeReady p = none := by
  refine if_neg ?_
  rintro ⟨idle, up⟩
  rcases h with sending | down
  · exact sending idle
  · exact nomatch up.symm.trans down

theorem takeFrame_none {p : Port} (h : s.takeReady p = none) : takeFrame p s = s := by rw [takeFrame, h]

theorem takeFrame_some {p : Port} {a : AreaId} {f : Frame} {rest : List Frame} (h : s.takeReady p = some a)
    (frames : (s.area a).frames = f :: rest) :
    takeFrame p s = (s.setArea a { s.area a with frames := rest }).setPort p ((s.port p).send f) := by
  simp only [takeFrame, h, popFrame, frames, List.head?_cons, List.tail_cons]

/-- A transmitter takes what its state and line let it take, and nothing else. -/
theorem exec_transmitterTake (p : Port) (s : State) : exec (.transmitterTake p) s = .next (takeFrame p s) := rfl

/-! ### What a port receives -/

theorem exec_receiveStart (p : Port) (bytes : List Byte) (s : State) :
    exec (.receiveStart p bytes) s = match (s.port p).receive with
      | .idle => .next (s.setPort p { s.port p with receive := .receiving (bytes.take 64) })
      | .receiving _ => .next s := rfl

theorem exec_transmitComplete (p : Port) (number : Nat) (s : State) :
    exec (.transmitComplete p number) s =
      if (s.port p).transmitter.any fun x => decide (x.number = number) then
        .next (s.setPort p { s.port p with transmitter := none })
      else .next s := rfl

/-- Settles O36: what a port receives and abandons, which completion ends a transmission, and what a transmitter takes. -/
theorem portsReceiveTakeAndSend : Obligations.PortsReceiveTakeAndSend := by
  refine ⟨fun p s => ⟨fun bytes idle => ?_, fun bytes kept h => ?_, rfl, rfl, fun sent h => ⟨?_, fun other ne => ?_⟩,
    fun h number => ?_, fun r long fits code => ?_, fun r long fits code => ?_⟩,
    fun p s => ⟨fun l a f rest idle up filled first frames => ?_, fun unready => ?_⟩⟩
  · rw [exec_receiveStart, idle]
  · rw [exec_receiveStart, h]
  · rw [exec_transmitComplete, h, Option.any_some, decide_eq_true rfl, if_pos rfl]
  · rw [exec_transmitComplete, h, Option.any_some, decide_eq_false (Ne.symm ne)]
    rfl
  · rw [exec_transmitComplete, h]
    rfl
  · rw [exec_linkReset long fits, ownLinkReset_port code]
  · rw [exec_linkReset long fits, ownLinkReset_bad code]
  · have ready : s.takeReady p = some a := (takeReady_ready idle up).trans (nextArea_eq_some filled first)
    rw [exec_transmitterTake, takeFrame_some ready frames, PortState.send, Frame.sent_eq]
    rfl
  · have held : s.takeReady p = none := by
      rcases unready with sending | down | empty
      · exact takeReady_held (.inl sending)
      · exact takeReady_held (.inr down)
      · rw [State.takeReady, nextArea_eq_none empty, ite_self]
    rw [exec_transmitterTake, takeFrame_none held]

end Machine
end Sys2Proof
end

section
/-! SUPPORT. Station acceptance (R17): what its steps make of a frame of a station kind. -/

namespace Sys2Proof.Machine

variable {s : State} {k : RadioPort} {n : StationId} {f : Frame}

/-! ### Which station a frame comes from -/

theorem stationOf_eq_some {v : BitVec 6} (h : v.toNat = n.val + 1) : stationOf v = some n := ofNum_of n h

theorem stationOf_eq_none {v : BitVec 6} (h : v = 0 ∨ v = 63) : stationOf v = none := by
  rcases h with rfl | rfl <;> exact ofNum_bad (by decide)

@[simp] theorem station_receiveIdle (p : Port) (s : State) (n : StationId) : (receiveIdle p s).station n = s.station n :=
  station_congr (by simp) n

theorem restartQuiet_receiveIdle (p : Port) (n : StationId) (s : State) :
    restartQuiet n (receiveIdle p s)
      = (receiveIdle p s).setStation n { s.station n with quiet := some s.stations.staleLimit } := by
  rw [restartQuiet, station_receiveIdle, receiveIdle_stations]

theorem State.setStation_setStation (s : State) (n : StationId) (x y : Station) :
    (s.setStation n x).setStation n y = s.setStation n y := by
  simp only [State.setStation, Table.set_set]

/-! ### The commands of the station kinds -/

/-- The command of a station kind is the arrival of its frame. -/
theorem exec_stationKind {c : Port → FrameBody → Instr} {kind : Kind}
    (h : (c, kind) ∈ [(Instr.join, Kind.join), (Instr.beacon, .beacon), (Instr.pilot, .pilot), (Instr.telem, .telem),
      (Instr.element, .element), (Instr.claim, .claim), (Instr.release, .release)]) {f : FrameBody}
    (accepted : f.acceptable = true) (k : RadioPort) (s : State) :
    exec (c (.rl k) f) s = .next (stationFrame k { toFrameBody := f, kind } (receiveIdle (.rl k) s)) := by
  have passed : ∀ f : Frame, f.acceptable = true → gateAccepts (.rl k) f = true →
      arrival (.rl k) f s = .next (stationFrame k f (receiveIdle (.rl k) s)) := fun f a g => by
    simp only [arrival, a, g, Bool.and_self, if_true]
  simp only [List.mem_cons, Prod.mk.injEq, List.not_mem_nil, or_false] at h
  rcases h with ⟨rfl, rfl⟩ | ⟨rfl, rfl⟩ | ⟨rfl, rfl⟩ | ⟨rfl, rfl⟩ | ⟨rfl, rfl⟩ | ⟨rfl, rfl⟩ | ⟨rfl, rfl⟩ <;>
    exact passed _ accepted rfl

/-! ### The steps of acceptance -/

theorem stationFrame_anonymous (h : stationOf f.source = none) : stationFrame k f s = s := by
  rw [stationFrame, h]

theorem stationFrame_vacant (source : stationOf f.source = some n) (vacant : (s.station n).state = .vacant) :
    stationFrame k f s =
      if f.kind = .join ∧ 3 ≤ f.payload.length then answerJoin k n .notEnrolled f.sequence s else s := by
  rw [stationFrame, source]
  exact if_pos vacant

/-- Why acceptance hears no more than that the station is there: its record does not permit the kind, or the station is
not LINKED and the kind is neither JOIN nor BEACON. -/
def HeardOnly (kind : Kind) (x : Station) : Prop :=
  permitted kind x.kind = false ∨ (kind ≠ .join ∧ kind ≠ .beacon ∧ x.state ≠ .linked)

theorem stationFrame_heardOnly (source : stationOf f.source = some n) (enrolled : (s.station n).state ≠ .vacant)
    (h : HeardOnly f.kind (s.station n)) : stationFrame k f s = restartQuiet n s := by
  simp only [stationFrame, source, if_neg enrolled]
  rcases h with forbidden | ⟨join, beacon, unlinked⟩
  · rw [if_pos (by rw [forbidden]; rfl)]
  · have : f.kind ≠ .join ∧ f.kind ≠ .beacon ∧ (!(s.station n).isLinked) = true :=
      ⟨join, beacon, by simp [Station.isLinked, unlinked]⟩
    rw [if_pos this, ite_self]

theorem permitted_driver {kind : Kind} (h : kind ∈ [Kind.telem, .element, .claim, .release]) :
    permitted kind (some .driver) = false := by
  simp only [List.mem_cons, List.not_mem_nil, or_false] at h
  rcases h with rfl | rfl | rfl | rfl <;> rfl

/-! ### A frame that acceptance passes on -/

/-- Roaming follows a write of the station's record (R18). -/
theorem roam_setStation (k : RadioPort) (n : StationId) (x : Station) (s : State) :
    roam k n (s.setStation n x)
      = s.setStation n { x with recordedPort := if x.state = .linked then some k else x.recordedPort } := by
  simp only [roam, State.station_setStation_self, State.setStation_setStation, Station.isLinked, decide_eq_true_eq]
  by_cases linked : x.state = .linked
  · rw [if_pos linked, if_pos linked]
  · rw [if_neg linked, if_neg linked]

/-- To be heard from is to have the quiet timer restarted and, when LINKED, the ingress port recorded (R17, R18). -/
theorem heard_eq (k : RadioPort) (n : StationId) (s : State) :
    s.heard k n = (receiveIdle (.rl k) s).setStation n { s.station n with
      quiet := some s.stations.staleLimit
      recordedPort := if (s.station n).state = .linked then some k else (s.station n).recordedPort } := by
  rw [State.heard, restartQuiet_receiveIdle, roam_setStation]

/-- Settles O23: the steps of acceptance in their order, and the state in which it passes a frame on. -/
theorem stationAcceptanceTakesItsStepsInOrder : Obligations.StationAcceptanceTakesItsStepsInOrder := by
  refine ⟨fun c kind member k f s accepted => ⟨fun anonymous => ?_, fun n source => ⟨fun vacant => ?_,
    fun enrolled refused => ?_⟩⟩, fun k n s => ⟨rfl, heard_eq k n s⟩⟩
  · rw [exec_stationKind member accepted, stationFrame_anonymous (stationOf_eq_none anonymous)]
  · rw [exec_stationKind member accepted,
      stationFrame_vacant (stationOf_eq_some source) (by rw [station_receiveIdle]; exact vacant)]
    rfl
  · have heardOnly : HeardOnly kind (s.station n) := by
      rcases refused with ⟨robot, pilot⟩ | ⟨driver, kinds⟩ | unlinked
      · left; rw [robot, pilot]; rfl
      · left; rw [driver]; exact permitted_driver kinds
      · exact .inr unlinked
    rw [exec_stationKind member accepted, stationFrame_heardOnly (stationOf_eq_some source)
      (by rwa [station_receiveIdle]) (by rwa [station_receiveIdle]), restartQuiet_receiveIdle]

end Sys2Proof.Machine
end

section
/-! SUPPORT. The census: the next position it probes, how it ends, and what a PROBE_REPLY makes of it. -/

namespace Sys2Proof.Machine

variable {s : State}

/-! ### The next probe -/

/-- The first number with a property, in the list of all numbers. -/
theorem find?_finRange_eq_some {n : Nat} {p : Fin n → Bool} {i : Fin n} (h : p i = true) (first : ∀ j, j < i → ¬p j = true) :
    (List.finRange n).find? p = some i := by
  refine List.find?_eq_some_iff_getElem.mpr ⟨h, i.val, by simp, by simp, fun j lt => ?_⟩
  have below := first ⟨j, lt.trans i.isLt⟩ lt
  simpa using below

theorem find?_finRange_eq_none {n : Nat} {p : Fin n → Bool} (h : ∀ i, ¬p i = true) : (List.finRange n).find? p = none :=
  List.find?_eq_none.mpr fun i _ => h i

/-- Position q is one that the pass probes from index k on. -/
def Probes (s : State) (pass : ChainEnd) (k : Nat) (q : Position) : Prop :=
  k ≤ q.val ∧ (pass = .ca ∨ (s.node q).state = .absent)

theorem nextProbe_eq_some {pass : ChainEnd} {k : Nat} {q : Position} (h : Probes s pass k q)
    (first : ∀ j, j < q → ¬Probes s pass k j) : s.nextProbe pass k = some q := by
  refine find?_finRange_eq_some (by simpa [Probes] using h) fun j lt found => first j lt ?_
  simpa [Probes] using found

theorem nextProbe_eq_none {pass : ChainEnd} {k : Nat} (h : ∀ q, ¬Probes s pass k q) : s.nextProbe pass k = none :=
  find?_finRange_eq_none fun q found => h q (by simpa [Probes] using found)

/-- The CB pass begins with the positions that are ABSENT. -/
theorem probes_cb_zero {q : Position} : Probes s .cb 0 q ↔ (s.node q).state = .absent := by simp [Probes]

/-! ### What follows a probe -/

theorem continueCensus_probe {c : Census} {q : Position} (h : s.nextProbe c.pass (c.position.val + 1) = some q) :
    continueCensus c s = sendProbe c.requestTag c.pass q s := by rw [continueCensus, h]

theorem continueCensus_second {c : Census} {q : Position} (spent : s.nextProbe c.pass (c.position.val + 1) = none)
    (pass : c.pass = .ca) (ring : s.chain.mode = .ring) (h : s.nextProbe .cb 0 = some q) :
    continueCensus c s = sendProbe c.requestTag .cb q s := by
  simp only [continueCensus, spent]
  simp only [pass, ring, h]

theorem continueCensus_done {c : Census} (spent : s.nextProbe c.pass (c.position.val + 1) = none)
    (h : c.pass = .cb ∨ s.chain.mode = .line ∨ s.nextProbe .cb 0 = none) :
    continueCensus c s = finishCensus c.requestTag s := by
  simp only [continueCensus, spent]
  split
  · next pass ring =>
    rcases h with cb | line | none
    · exact nomatch pass.symm.trans cb
    · exact nomatch ring.symm.trans line
    · rw [none]
  · rfl

/-! ### The end of the census -/

theorem sendSignal_eq (type : ChainType) (s : State) :
    sendSignal type s =
      if s.chain.mode = .ring then sendOn .cb (signalMessage type) (sendOn .ca (signalMessage type) s)
      else sendOn .ca (signalMessage type) s := by
  unfold sendSignal
  cases s.chain.mode <;> rfl

/-- The records after the census: the PRESENT ones are READY (R143). -/
theorem finishCensus_eq (tag : Byte) (s : State) :
    let woken := sendSignal .wake s
    let resumed := sendSignal .resume { woken with chain := { woken.chain with nodes := s.chain.nodes.map wakeNode } }
    finishCensus tag s = laterResult .censusDone tag
      [byte ((s.chain.nodes.map wakeNode).count fun x => decide (x.state = .ready))] (resumed.setCensus none) := by
  simp only [finishCensus, State.readyCount, State.setCensus, sendSignal_chain_nodes]

/-! ### PROBE_REPLY -/

theorem NodeKind.ofCode_code (kind : NodeKind) : NodeKind.ofCode kind.code = some kind := by cases kind <;> rfl

theorem NodeKind.exists_ofCode {c : Nat} (h : c ≤ 6) : ∃ kind, NodeKind.ofCode c = some kind := by
  match c, h with
  | 0, _ | 1, _ | 2, _ | 3, _ | 4, _ | 5, _ | 6, _ => exact ⟨_, rfl⟩

theorem exec_probeReply {e : ChainEnd} {position nodeKind : Byte} {q : Position} {kind : NodeKind}
    (h : position.toNat = q.val + 1) (code : NodeKind.ofCode nodeKind.toNat = some kind) (s : State) :
    exec (.probeReply e position nodeKind) s = .next (takeProbeReply e q kind s) := by
  change execProbeReply e position nodeKind s = _
  have found : positionOf position = some q := ofNum_of q h
  simp only [execProbeReply, found, code]

theorem takeProbeReply_unasked {e : ChainEnd} {q : Position} (kind : NodeKind) (h : s.probeAnswered e q = none) :
    takeProbeReply e q kind s = hear q s := by
  simp only [takeProbeReply, h]

theorem takeProbeReply_asked {c : Census} (kind : NodeKind) (h : s.chain.census = some c) :
    takeProbeReply c.pass c.position kind s =
      continueCensus c ((hear c.position s).setNode c.position
        { (hear c.position s).node c.position with state := .present, kind := some kind, servingEnd := c.pass }) := by
  have asked : s.probeAnswered c.pass c.position = some c := by
    simp [State.probeAnswered, h]
  simp only [takeProbeReply, asked]

/-- A PROBE_REPLY from another position or on another end answers no probe. -/
theorem probeAnswered_other {c : Census} {e : ChainEnd} {q : Position} (h : s.chain.census = some c)
    (other : q ≠ c.position ∨ e ≠ c.pass) : s.probeAnswered e q = none := by
  rw [State.probeAnswered, h, Option.filter_some, if_neg]
  rw [Bool.and_eq_true, decide_eq_true_eq, decide_eq_true_eq]
  rintro ⟨position, pass⟩
  rcases other with ne | ne
  · exact ne position.symm
  · exact ne pass.symm

theorem exec_probeReply_unasked {e : ChainEnd} {position nodeKind : Byte} {q : Position} (h : position.toNat = q.val + 1)
    (code : nodeKind.toNat ≤ 6) (unasked : s.probeAnswered e q = none) :
    exec (.probeReply e position nodeKind) s = .next (hear q s) := by
  obtain ⟨kind, found⟩ := NodeKind.exists_ofCode code
  rw [exec_probeReply h found, takeProbeReply_unasked kind unasked]

/-- What the manual says follows a probe (R142, R143). -/
def Follows (c : Census) (t u : State) : Prop :=
  (∀ q, Probes t c.pass (c.position.val + 1) q → (∀ j, j < q → ¬Probes t c.pass (c.position.val + 1) j) →
    u = sendProbe c.requestTag c.pass q t)
  ∧ ((∀ q, ¬Probes t c.pass (c.position.val + 1) q) →
      (c.pass = .ca → t.chain.mode = .ring → ∀ q, (t.node q).state = .absent →
        (∀ j, j < q → (t.node j).state ≠ .absent) → u = sendProbe c.requestTag .cb q t)
      ∧ (c.pass = .cb ∨ t.chain.mode = .line ∨ (∀ q, (t.node q).state ≠ .absent) → u = finishCensus c.requestTag t))

theorem continueCensus_follows (c : Census) (t : State) : Follows c t (continueCensus c t) := by
  refine ⟨fun q left first => continueCensus_probe (nextProbe_eq_some left first), fun spent => ⟨?_, fun ends => ?_⟩⟩
  · intro pass ring q absent first
    exact continueCensus_second (nextProbe_eq_none spent) pass ring
      (nextProbe_eq_some (probes_cb_zero.mpr absent) fun j lt => mt probes_cb_zero.mp (first j lt))
  · exact continueCensus_done (nextProbe_eq_none spent) (ends.imp_right (.imp_right fun present =>
      nextProbe_eq_none fun q => mt probes_cb_zero.mp (present q)))

/-- Settles O38: a census probes position after position, its second pass in RING mode, and then wakes the field. -/
theorem censusProbesThenWakes : Obligations.CensusProbesThenWakes := by
  refine ⟨fun c s census => ⟨⟨_, ?_, continueCensus_follows c _⟩, continueCensus_follows c, fun tag t => ?_,
    fun position nodeKind kind place code => ⟨_, ?_, continueCensus_follows c _⟩,
    fun e position nodeKind q place code other => exec_probeReply_unasked place code (probeAnswered_other census other)⟩,
    fun s census => ⟨?_, fun e position nodeKind q place code => exec_probeReply_unasked place code ?_⟩⟩
  · change execProbeTimeout s = _
    rw [execProbeTimeout, census]
  · rw [finishCensus_eq, sendSignal_eq, sendSignal_eq]
    rfl
  · rw [exec_probeReply place (code ▸ NodeKind.ofCode_code kind), takeProbeReply_asked kind census]
  · change execProbeTimeout s = _
    rw [execProbeTimeout, census]
  · rw [State.probeAnswered, census, Option.filter_none]

end Sys2Proof.Machine
end

section
/-! SUPPORT. The held flags as an invariant. A write of a station's record may leave behind the robots that name the station;
their evaluation, which follows every such write, makes the flags fit again. -/

-- One theorem after the other: each elaboration task that runs beside another takes a stack from the check's memory limit.
set_option Elab.async false

namespace Sys2Proof.Machine

variable {s t : State} {n : StationId}

/-- The held flag of station n is as the phase and its partner's record say (R32). -/
def State.HeldAt (s : State) (n : StationId) : Prop := (s.station n).held = ((s.station n).isRobot && s.holdCondition n)

/-- The held flags fit but for those of robots that name station n and have not been evaluated yet. -/
def State.HeldBut (s : State) (n : StationId) : Prop :=
  ∀ m, ((s.station m).isRobot = true ∧ (s.station m).partner = some n) ∨ s.HeldAt m

/-- The hold condition reads the phase, the partner fields, and which records are LINKED. -/
theorem holdCondition_congr (phase : t.control.phase = s.control.phase)
    (partner : (t.station n).partner = (s.station n).partner)
    (linked : ∀ m, (s.station n).partner = some m → (t.station m).isLinked = (s.station m).isLinked) :
    t.holdCondition n = s.holdCondition n := by
  simp only [State.holdCondition, phase, partner]
  split
  · rfl
  · next m e => rw [linked m e]

/-- What the hold condition reads is not changed where the records differ in held flags alone. -/
theorem HeldOnly.holdCondition (h : HeldOnly s t) (phase : t.control.phase = s.control.phase) (n : StationId) :
    t.holdCondition n = s.holdCondition n :=
  holdCondition_congr phase (by rw [h n]) fun m _ => by rw [h m]; rfl

/-! ### Evaluations -/

theorem heldAt_evaluateHold_self (robot : (s.station n).isRobot = true) : (evaluateHold s n).HeldAt n := by
  have same := (HeldOnly.evaluateHold s n).holdCondition (by simp) n
  rw [State.HeldAt, same, evaluateHold_station]
  simp [Station.isRobot] at robot ⊢
  simp [robot]

theorem State.HeldAt.evaluateHold {m : StationId} (h : s.HeldAt m) (n : StationId) : (evaluateHold s n).HeldAt m := by
  by_cases robot : m = n ∧ (s.station n).isRobot = true
  · obtain ⟨rfl, robot⟩ := robot
    exact heldAt_evaluateHold_self robot
  · have same := (HeldOnly.evaluateHold s n).holdCondition (by simp) m
    rw [State.HeldAt, same, evaluateHold_station, if_neg robot]
    exact h

/-- The evaluation of the stations of a list whose records have a property, which does not read held flags, makes the
flags of the robots among them fit and keeps those that did. -/
theorem heldAt_foldl {p : Station → Bool} (reads : ∀ x b, p { x with held := b } = p x) (l : List StationId) (s : State)
    (m : StationId)
    (h : (m ∈ l ∧ p (s.station m) = true ∧ (s.station m).isRobot = true) ∨ s.HeldAt m) :
    (l.foldl (fun u k => if p (u.station k) then evaluateHold u k else u) s).HeldAt m := by
  induction l generalizing s with
  | nil =>
    rcases h with ⟨none, -⟩ | h
    · exact absurd none List.not_mem_nil
    · exact h
  | cons k l ih =>
    rw [List.foldl_cons]
    apply ih
    by_cases named : p (s.station k) = true
    · rw [if_pos named]
      rcases h with ⟨member, property, robot⟩ | h
      · rcases List.mem_cons.mp member with rfl | member
        · exact .inr (heldAt_evaluateHold_self robot)
        · rw [HeldOnly.evaluateHold s k m]
          exact .inl ⟨member, (reads _ _).trans property, robot⟩
      · exact .inr (h.evaluateHold k)
    · rw [if_neg named]
      refine h.imp_left fun ⟨member, property, robot⟩ => ⟨?_, property, robot⟩
      rcases List.mem_cons.mp member with rfl | member
      · exact absurd property named
      · exact member

theorem State.HeldBut.evaluatePartners (h : s.HeldBut n) : (evaluatePartners n s).heldFits := fun m => by
  have fits := heldAt_foldl (p := fun x => decide (x.partner = some n)) (fun _ _ => rfl) (List.finRange 32) s m
    ((h m).imp_left fun ⟨robot, named⟩ => ⟨List.mem_finRange m, decide_eq_true named, robot⟩)
  simp only [decide_eq_true_eq] at fits
  exact fits

/-- Where all ROBOT records are evaluated only the other records' flags must have fitted before. -/
theorem evaluateAll_heldFits (h : ∀ m, (s.station m).isRobot = false → (s.station m).held = false) :
    (evaluateAll s).heldFits := fun m => by
  have fits := heldAt_foldl (p := fun _ => true) (fun _ _ => rfl) (List.finRange 32) s m ?_
  · simp only [if_true] at fits
    exact fits
  · cases robot : (s.station m).isRobot with
    | true => exact .inl ⟨List.mem_finRange m, rfl, rfl⟩
    | false => exact .inr (by simp [State.HeldAt, robot, h m robot])

/-! ### States in which no robot is held -/

/-- Outside DRIVER and ENDGAME the held flags fit when none is set. -/
theorem heldFits_of_still (still : s.control.phase.isDriven = false) : s.heldFits ↔ ∀ m, (s.station m).held = false := by
  simp [State.heldFits, holdCondition_false still]

/-- The records agree on what the held flag of their station is told by on the record itself. -/
structure Station.Alike (x y : Station) : Prop where
  kind : y.kind = x.kind
  partner : y.partner = x.partner
  held : y.held = x.held

theorem Station.Alike.refl (x : Station) : x.Alike x := ⟨rfl, rfl, rfl⟩

theorem Station.Alike.isRobot {x y : Station} (h : x.Alike y) : y.isRobot = x.isRobot := by
  rw [Station.isRobot, h.kind]
  rfl

theorem alike_setStation {x : Station} (h : (s.station n).Alike x) (m : StationId) :
    (s.station m).Alike ((s.setStation n x).station m) := by
  rw [State.station_setStation]
  split
  · next e => exact e ▸ h
  · exact .refl _

theorem Phase.isDriven_of_isBetween {p : Phase} (h : p.isBetween = true) : p.isDriven = false := by
  cases p with
  | setup => rfl
  | ended r => rfl
  | staged | running | paused => exact nomatch h

namespace State.heldFits

/-- A flag fits where its record is alike and its partner's record is LINKED or not as before. -/
theorem heldAt (h : s.heldFits) (phase : t.control.phase = s.control.phase) (record : (s.station n).Alike (t.station n))
    (linked : ∀ k, (s.station n).partner = some k → (t.station k).isLinked = (s.station k).isLinked) : t.HeldAt n := by
  rw [State.HeldAt, record.held, record.isRobot, holdCondition_congr phase record.partner linked]
  exact h n

/-- Writes of parts that the held flags do not follow. -/
theorem congr (h : s.heldFits) (phase : t.control.phase = s.control.phase := by simp)
    (stations : t.stations = s.stations := by simp) : t.heldFits := fun m => by
  have record := station_congr stations
  exact h.heldAt phase (by rw [record]; exact .refl _) fun k _ => by rw [record]

theorem not_held (h : s.heldFits) (still : s.control.phase.isDriven = false) (m : StationId) :
    (s.station m).held = false := (heldFits_of_still still).mp h m

/-! ### Changes of a station's record -/

/-- A record is written with what its own flag is told by as it was: only the robots that name it are to be evaluated. -/
theorem setStation (h : s.heldFits) {x : Station} (alike : (s.station n).Alike x) : (s.setStation n x).HeldBut n := fun m => by
  have record := alike_setStation alike m
  by_cases named : (s.station m).isRobot = true ∧ (s.station m).partner = some n
  · exact .inl (by rw [record.isRobot, record.partner]; exact named)
  · right
    cases robot : (s.station m).isRobot with
    | false => rw [State.HeldAt, record.held, record.isRobot, h m, robot, Bool.false_and, Bool.false_and]
    | true =>
      refine h.heldAt rfl record fun k partner => ?_
      have other : k ≠ n := fun e => named ⟨robot, e ▸ partner⟩
      rw [State.station_setStation, if_neg other]

/-- A record that is LINKED or not as it was leaves no robot to be evaluated. -/
theorem setStation_linked (h : s.heldFits) {x : Station} (alike : (s.station n).Alike x)
    (linked : x.isLinked = (s.station n).isLinked) : (s.setStation n x).heldFits := fun m => by
  refine h.heldAt rfl (alike_setStation alike m) fun k _ => ?_
  rw [State.station_setStation]
  split
  · next e => rw [e, linked]
  · rfl

end State.heldFits

/-- Writes of parts that the held flags do not follow. -/
theorem State.HeldBut.congr (h : s.HeldBut n) (phase : t.control.phase = s.control.phase := by simp)
    (stations : t.stations = s.stations := by simp) : t.HeldBut n := fun m => by
  have record := station_congr stations
  rw [record]
  refine (h m).imp_right fun fits => ?_
  rw [State.HeldAt, record, holdCondition_congr phase (by rw [record]) fun k _ => by rw [record]]
  exact fits

namespace State.heldFits

theorem changeStation (h : s.heldFits) {x : Station} (alike : (s.station n).Alike x) (arena : Option ArenaNotice) :
    (changeStation n x arena s).heldFits := by
  have told : State.HeldBut (Machine.stationChange n (s.station n).state x.state
      (match arena with
        | some a => arenaTo a n (if (s.station n).isLinked then leaveLinked n (s.setStation n x) else s.setStation n x)
        | none => if (s.station n).isLinked then leaveLinked n (s.setStation n x) else s.setStation n x)) n :=
    (h.setStation alike).congr (by (repeat' split) <;> simp) (by (repeat' split) <;> simp)
  exact told.evaluatePartners

/-- Where no robot is held a change of a record without a held flag holds none. -/
theorem changeStation_still (h : s.heldFits) (still : s.control.phase.isDriven = false) {x : Station}
    (free : x.held = false) (arena : Option ArenaNotice) : (Machine.changeStation n x arena s).heldFits := by
  rw [heldFits_of_still (by simpa using still)]
  refine fun m => changeStation_lowers still n m x arena ?_
  rw [State.station_setStation]
  split
  · exact free
  · exact h.not_held still m

/-- A change of a record's state alone leaves its flag as it fits, and evaluates the robots that name it. -/
theorem changeState (h : s.heldFits) (n : StationId) (state : StationState) (arena : Option ArenaNotice) :
    (Machine.changeStation n { s.station n with state } arena s).heldFits :=
  h.changeStation (x := { s.station n with state }) ⟨rfl, rfl, rfl⟩ arena

theorem disableByVerdict (h : s.heldFits) (n : StationId) : (disableByVerdict n s).heldFits := by
  simp only [Machine.disableByVerdict, disableStation]
  split
  case h_4 | h_5 | h_6 => exact h
  all_goals exact h.changeState n _ _

theorem quietExpired (h : s.heldFits) (n : StationId) : (quietExpired n s).heldFits := by
  simp only [Machine.quietExpired]
  split
  · exact h.changeStation (x := { s.station n with state := .stale, quiet := none }) ⟨rfl, rfl, rfl⟩ _
  · exact h.setStation_linked (x := { s.station n with quiet := none }) ⟨rfl, rfl, rfl⟩ rfl

end State.heldFits

theorem State.HeldBut.afterLink (h : s.HeldBut n) (old : StationState) : (afterLink n old s).heldFits := by
  have told : (stationChange n old .linked s).HeldBut n := h.congr
  have fits : (Machine.evaluatePartners n (stationChange n old .linked s)).heldFits := told.evaluatePartners
  simp only [Machine.afterLink]
  split
  · exact fits.congr
  · exact fits

namespace State.heldFits

theorem linkRecord (h : s.heldFits) (n : StationId) (k : RadioPort) : (linkRecord n k s).HeldBut n :=
  h.setStation ⟨rfl, rfl, rfl⟩

/-- A LINKED record that is linked again takes the port alone. -/
theorem linkRecord_linked (h : s.heldFits) (k : RadioPort) (linked : (s.station n).state = .linked) :
    (Machine.linkRecord n k s).heldFits :=
  h.setStation_linked ⟨rfl, rfl, rfl⟩ (by simp [Station.isLinked, linked])

theorem handleJoin (h : s.heldFits) (k : RadioPort) (n : StationId) (f : FrameBody) : (handleJoin k n f s).heldFits := by
  have linked : (answerJoin k n .joinOk f.sequence (Machine.linkRecord n k s)).HeldBut n := (h.linkRecord n k).congr
  simp only [Machine.handleJoin]
  (repeat' split)
  · exact h
  · exact h
  · exact linked.afterLink _
  · exact h.congr
  · exact linked.afterLink _
  · exact h.congr
  · next state => exact (h.linkRecord_linked k state).congr
  · exact h.congr
  · exact h.congr

theorem handleBeacon (h : s.heldFits) (k : RadioPort) (n : StationId) : (handleBeacon k n s).heldFits := by
  simp only [Machine.handleBeacon]
  split
  · exact (h.linkRecord n k).afterLink _
  · next state => exact h.linkRecord_linked k state
  all_goals exact h

/-! ### The stages of a station frame -/

theorem handleFrame (h : s.heldFits) (k : RadioPort) (n : StationId) (f : Frame) (steer : Option AreaId) :
    (handleFrame k n f steer s).heldFits := by
  simp only [Machine.handleFrame]
  split
  case h_1 => exact h.handleJoin k n _
  case h_2 => exact h.handleBeacon k n
  all_goals exact h.congr

theorem applyVerdict (h : s.heldFits) (u : Rule) (k : RadioPort) (n : StationId) (f : Frame) :
    (applyVerdict u k n f s).heldFits := by
  simp only [Machine.applyVerdict]
  split
  · exact h.handleFrame k n f _
  · exact State.heldFits.handleFrame h.congr k n f _
  · exact h.handleFrame k n f _
  · exact h.congr
  · exact h
  · exact h.disableByVerdict n

theorem passPhaseGate (h : s.heldFits) (k : RadioPort) (n : StationId) (f : Frame) : (passPhaseGate k n f s).heldFits := by
  simp only [Machine.passPhaseGate, applyRules]
  (repeat' split)
  · exact State.heldFits.applyVerdict h.congr _ k n f
  · exact h.handleFrame k n f _
  · exact h
  · exact h.congr

theorem restartQuiet (h : s.heldFits) (n : StationId) : (restartQuiet n s).heldFits :=
  h.setStation_linked ⟨rfl, rfl, rfl⟩ rfl

theorem roam (h : s.heldFits) (k : RadioPort) (n : StationId) : (roam k n s).heldFits := by
  simp only [Machine.roam]
  split
  · exact h.setStation_linked ⟨rfl, rfl, rfl⟩ rfl
  · exact h

theorem stationFrame (h : s.heldFits) (k : RadioPort) (f : Frame) : (stationFrame k f s).heldFits := by
  simp only [Machine.stationFrame]
  (repeat' split)
  · exact h
  · exact h.congr
  · exact h
  · exact h.restartQuiet _
  · exact h.restartQuiet _
  · exact ((h.restartQuiet _).roam k _).passPhaseGate k _ f

/-! ### Time and the phases -/

theorem elapse (h : s.heldFits) (k : Nat) : (elapse k s).heldFits := fun m => by
  have record : ∀ j, (Machine.elapse k s).station j = { s.station j with quiet := countDown k (s.station j).quiet } :=
    fun j => by
      simp only [Machine.elapse]
      split <;> simp [State.station, matchTime, realTime]
  refine h.heldAt (by simp) ?_ fun j _ => ?_
  · rw [record]
    exact ⟨rfl, rfl, rfl⟩
  · rw [record]
    rfl

/-- The entry of a phase sets every ROBOT's flag anew, whatever the phase was before. -/
theorem holdEntry {u : State} (h : s.heldFits) (stations : u.stations = s.stations) :
    (holdEntry u.control.phase u).heldFits := by
  simp only [Machine.holdEntry]
  split
  · refine evaluateAll_heldFits fun m other => ?_
    rw [station_congr stations] at other ⊢
    rw [h m, other, Bool.false_and]
  · next still =>
    rw [heldFits_of_still (by simpa using still)]
    exact fun m => clearHeld_held u m

theorem enterPhase (h : s.heldFits) (new : Phase) (timer : Nat) : (enterPhase new timer s).heldFits := by
  let u := announcePhase (s.setControl { s.control with
    phase := new, timer, accumulator := entryAccumulator new s.control.accumulator })
  have phase : u.control.phase = new := by simp [u]
  have entered : (Machine.holdEntry new u).heldFits := phase ▸ h.holdEntry (u := u) (by simp [u])
  exact entered.congr (by simp [Machine.enterPhase, u]) (by simp [Machine.enterPhase, u])

theorem passThroughIn (k : Nat) (h : s.heldFits) : (passThroughIn k s).heldFits := by
  induction k generalizing s with
  | zero => exact h
  | succ k ih =>
    simp only [Machine.passThroughIn]
    (repeat' split)
    · exact ih (h.enterPhase _ _)
    · exact h
    · exact h

theorem passThrough (h : s.heldFits) : (passThrough s).heldFits := h.passThroughIn 4

theorem silenceExpired (h : s.heldFits) : (silenceExpired s).heldFits := by
  have stopped : (s.setControl { s.control with silence := none }).heldFits := h.congr rfl rfl
  simp only [Machine.silenceExpired]
  split
  · exact stopped.enterPhase _ _
  · exact stopped

/-! ### The resets -/

theorem powerOn (phase : t.control.phase = .setup) (stations : t.stations = .powerOn) : t.heldFits := by
  rw [heldFits_of_still (by rw [phase]; rfl)]
  intro m
  rw [State.station, stations, StationTable.powerOn, Table.get_fill]
  rfl

/-- The resets of the stations come where no robot is held, and hold none. -/
theorem resetStation (h : s.heldFits) (still : s.control.phase.isDriven = false) (n : StationId) :
    (resetStation s n).heldFits := by
  simp only [Machine.resetStation]
  split
  · exact h
  · have written : (s.setStation n (s.station n).fieldReset).control.phase.isDriven = false := still
    rw [heldFits_of_still written]
    intro m
    rw [State.station_setStation]
    split
    · rfl
    · exact h.not_held still m
  all_goals exact h.changeStation_still still rfl _

theorem resetStations (h : s.heldFits) (still : s.control.phase.isDriven = false) (l : List StationId) :
    (l.foldl Machine.resetStation s).heldFits := by
  induction l generalizing s with
  | nil => exact h
  | cons n l ih => exact ih (h.resetStation still n) (by simpa using still)

theorem fieldReset (h : s.heldFits) (between : s.control.phase.isBetween = true) : (fieldReset s).heldFits := by
  have stations := h.resetStations (Phase.isDriven_of_isBetween between) (List.finRange 32)
  have reset : (resetMatch (emptyStations (fillCredit (clearClaims
      ((List.finRange 32).foldl Machine.resetStation s))))).heldFits :=
    stations.congr (by simp [resetMatch]) (by simp [resetMatch])
  simp only [Machine.fieldReset]
  split
  · exact reset.enterPhase _ _
  · exact reset

/-! ### The owners of requests -/

theorem ownFieldReset (h : s.heldFits) : (ownFieldReset s).state.heldFits := by
  simp only [Machine.ownFieldReset]
  split
  · exact h
  · next between =>
    split
    · exact h
    · exact h.fieldReset (by simpa using between)

/-- An ENROL comes in SETUP, where no robot is held. -/
theorem enrol (h : s.heldFits) (setup : s.control.phase = .setup) (n : StationId) (kind : StationKind) (a : Alliance)
    (team : Nat) (partner : Option StationId) : (enrol n kind a team partner s).heldFits := by
  have still : s.control.phase.isDriven = false := by rw [setup]; rfl
  rw [heldFits_of_still (by simpa using still)]
  intro m
  have written : ((s.setStation n { s.station n with
      state := .enrolled, kind := some kind, alliance := a, team, partner }).station m).held = false := by
    rw [State.station_setStation]
    split
    · exact h.not_held still n
    · exact h.not_held still m
  simp only [Machine.enrol]
  split
  · refine evaluatePartners_lowers (by simpa using still) n m ?_
    rw [station_congr (stationChange_stations _ _ _ _)]
    exact written
  · exact written

theorem ownEnrol (h : s.heldFits) (r : Request) : (ownEnrol r s).state.heldFits := by
  simp only [Machine.ownEnrol]
  split
  · exact h
  · next setup =>
    (repeat' split) <;> simp only [done_state, refuse_state, h]
    all_goals exact h.enrol (Classical.not_not.mp setup) _ _ _ _ _

theorem ownUnenrol (h : s.heldFits) (r : Request) : (ownUnenrol r s).state.heldFits := by
  simp only [Machine.ownUnenrol]
  (repeat' split) <;> simp only [done_state, refuse_state, h]
  next between _ _ _ _ =>
    exact h.changeStation_still (Phase.isDriven_of_isBetween (by simpa using between)) rfl _

theorem ownDisable (h : s.heldFits) (r : Request) : (ownDisable r s).state.heldFits := by
  simp only [Machine.ownDisable, disableStation]
  (repeat' split) <;> simp only [done_state, refuse_state, h]
  all_goals exact h.changeState _ _ _

theorem ownEnable (h : s.heldFits) (r : Request) : (ownEnable r s).state.heldFits := by
  simp only [Machine.ownEnable]
  (repeat' split) <;> simp only [done_state, refuse_state, h]
  exact h.changeState _ _ _

theorem ownEject (h : s.heldFits) (r : Request) : (ownEject r s).state.heldFits := by
  simp only [Machine.ownEject]
  (repeat' split) <;> simp only [done_state, refuse_state, h]
  all_goals exact h.changeState _ _ _

/-- STALE_LIMIT writes no record. -/
theorem ownStaleLimit (h : s.heldFits) (r : Request) : (ownStaleLimit r s).state.heldFits := by
  simp only [Machine.ownStaleLimit]
  split
  · exact h
  · exact h

theorem ownStage (h : s.heldFits) : (ownStage s).state.heldFits := by
  simp only [Machine.ownStage]
  (repeat' split) <;> simp only [done_state, refuse_state, h]
  exact h.enterPhase _ _

theorem ownUnstage (h : s.heldFits) : (ownUnstage s).state.heldFits := by
  simp only [Machine.ownUnstage]
  split <;> simp only [done_state, refuse_state, h]
  exact h.enterPhase _ _

theorem ownStart (h : s.heldFits) : (ownStart s).state.heldFits := by
  have cleared : (s.setControl { s.control with accumulator := 0 }).heldFits := h.congr rfl rfl
  simp only [Machine.ownStart]
  split <;> simp only [done_state, refuse_state, h]
  exact (cleared.enterPhase _ _).passThrough

theorem ownPause (h : s.heldFits) : (ownPause s).state.heldFits := by
  simp only [Machine.ownPause]
  split <;> simp only [done_state, refuse_state, h]
  exact h.enterPhase _ _

theorem ownResume (h : s.heldFits) : (ownResume s).state.heldFits := by
  simp only [Machine.ownResume]
  split <;> simp only [done_state, refuse_state, h]
  exact (h.enterPhase _ _).passThrough

theorem ownAbort (h : s.heldFits) : (ownAbort s).state.heldFits := by
  simp only [Machine.ownAbort]
  split <;> simp only [done_state, refuse_state, h]
  all_goals exact h.enterPhase _ _

theorem ownerOf (h : s.heldFits) (code : Nat) (r : Request) : (ownerOf code r s).state.heldFits := by
  unfold Machine.ownerOf
  split
  any_goals simp only [h.ownFieldReset, h.ownEnrol, h.ownUnenrol, h.ownDisable, h.ownEnable, h.ownEject, h.ownStaleLimit,
    h.ownStage, h.ownUnstage, h.ownStart, h.ownPause, h.ownResume, h.ownAbort]
  all_goals exact h.congr

/-! ### The effects -/

theorem effect (h : s.heldFits) (e : Effect s t) : t.heldFits := by
  cases e with
  | restarted cause => exact powerOn (by simp [restart, powerOnBlocks, PhaseControl.powerOn]) (by simp [restart, powerOnBlocks])
  | station k f => exact State.heldFits.stationFrame h.congr k f
  | owned code r =>
    have arrived : (mgmtArrives s).heldFits := h.congr
    exact (arrived.ownerOf code r).congr
  | quiet n k => exact (h.elapse k).quietExpired n
  | phase k => exact (h.elapse k).passThrough
  | silence k => exact (h.elapse k).silenceExpired
  | tick k => exact (h.elapse k).congr rfl
  | hold q k | bar q k | timeout t k | unanswered c k | settled g k | final k => exact (h.elapse k).congr
  | _ => exact h.congr

theorem step (h : s.heldFits) (hs : step s = .next t) : t.heldFits :=
  step_keeps (fun _ _ h => h) (fun _ h => h.elapse 1) (fun _ _ h e => h.effect e) h hs

end State.heldFits

end Sys2Proof.Machine
end

section
/-! SUPPORT. PILOT frames in the queue areas: the part composes none, so that the router alone stores one, in DRIVER and ENDGAME,
and the departure from these phases purges them. -/

-- One theorem after the other: each elaboration task that runs beside another takes a stack from the check's memory limit.
set_option Elab.async false

namespace Sys2Proof.Machine

/-- No area holds a PILOT frame. -/
def State.PilotFree (s : State) : Prop := ∀ a, ∀ f ∈ (s.area a).frames, f.kind ≠ .pilot

theorem report_ne_pilot : Kind.report ≠ .pilot := nofun
theorem answer_ne_pilot : Kind.answer ≠ .pilot := nofun
theorem arena_ne_pilot : Kind.arena ≠ .pilot := nofun

namespace State.PilotFree

variable {s t : State}

/-! ### Writes -/

theorem congr (h : s.PilotFree) (areas : t.areas = s.areas := by simp) : t.PilotFree := fun a => by
  simpa only [State.area, areas] using h a

theorem foldl {α : Type} {f : State → α → State} (hf : ∀ s x, s.PilotFree → (f s x).PilotFree) (l : List α)
    (h : s.PilotFree) : (l.foldl f s).PilotFree := by
  induction l generalizing s with
  | nil => exact h
  | cons x l ih => exact ih (hf s x h)

theorem setArea (h : s.PilotFree) {a : AreaId} {x : Area} (hx : ∀ f ∈ x.frames, f.kind ≠ .pilot) :
    (s.setArea a x).PilotFree := fun b => by
  rw [State.area_setArea]
  split
  · exact hx
  · exact h b

/-- Areas that are replaced lose frames alone. -/
theorem shrink (h : s.PilotFree) {g : Area → Area} (hg : ∀ x, ∀ f ∈ (g x).frames, f ∈ x.frames) :
    State.PilotFree { s with areas := s.areas.map g } := fun a f hf => by
  simp only [State.area, Table.get_map] at hf
  exact h a f (hg _ f hf)

theorem store (h : s.PilotFree) (a : AreaId) {f : Frame} (hf : f.kind ≠ .pilot) :
    (s.setArea a ((s.area a).store f)).PilotFree := by
  refine h.setArea fun x hx => ?_
  rcases List.mem_append.mp hx with old | new
  · exact h a x old
  · rw [List.mem_singleton.mp new]
    exact hf

theorem countDrop (h : s.PilotFree) (a : AreaId) : (s.setArea a (s.area a).countDrop).PilotFree := h.setArea (h a)

/-! ### Offers -/

theorem setReportsLost (h : s.PilotFree) (b : Bool) : (s.setReportsLost b).PilotFree := h

theorem offerReportIn (k : Nat) (h : s.PilotFree) (l : Lane) {f : Frame} (hf : f.kind ≠ .pilot) :
    (offerReportIn k l f s).PilotFree := by
  induction k generalizing l f s with
  | zero => exact h.setReportsLost true
  | succ k ih =>
    simp only [Machine.offerReportIn]
    (repeat' split)
    · exact h.setReportsLost true
    · exact (h.countDrop _).setReportsLost true
    · exact ih ((h.countDrop _).setReportsLost true) .normal report_ne_pilot
    · exact h.store _ hf

theorem offerReport (h : s.PilotFree) (l : Lane) {f : Frame} (hf : f.kind ≠ .pilot) : (offerReport l f s).PilotFree :=
  h.offerReportIn 3 l hf

theorem dropAt (h : s.PilotFree) (a : AreaId) : (dropAt a s).PilotFree := by
  simp only [Machine.dropAt]
  split
  · exact h.countDrop a
  · exact (h.countDrop a).offerReport _ report_ne_pilot

theorem offerRadio (h : s.PilotFree) (k : RadioPort) (l : Lane) (steer : Option AreaId) {f : Frame}
    (hf : f.kind ≠ .pilot) : (offerRadio k l steer f s).PilotFree := by
  simp only [Machine.offerRadio]
  (repeat' split)
  · exact h.congr
  · exact h.dropAt _
  · exact h.store _ hf

theorem notice (h : s.PilotFree) (name : ReportName) (data : List Byte) : (notice name data s).PilotFree :=
  h.offerReport _ report_ne_pilot

theorem laterResult (h : s.PilotFree) (name : ReportName) (tag : Byte) (data : List Byte) :
    (laterResult name tag data s).PilotFree := h.offerReport _ report_ne_pilot

theorem answerOn (h : s.PilotFree) (k : RadioPort) (n : StationId) (a : Answer) : (answerOn k n a s).PilotFree :=
  h.offerRadio _ _ _ answer_ne_pilot

theorem answer (h : s.PilotFree) (n : StationId) (a : Answer) : (answer n a s).PilotFree := by
  simp only [Machine.answer]
  split
  · exact h
  · exact h.answerOn _ _ _

theorem arenaTo (h : s.PilotFree) (x : ArenaNotice) (n : StationId) : (arenaTo x n s).PilotFree := by
  simp only [Machine.arenaTo]
  split
  · exact h
  · exact h.offerRadio _ _ _ arena_ne_pilot

theorem refuseFrame (h : s.PilotFree) (code : AnswerCode) (n : StationId) (f : Frame) :
    (refuseFrame code n f s).PilotFree := by
  simp only [Machine.refuseFrame]
  split
  case h_4 => exact h
  all_goals exact h.answer _ _

theorem answerCleared (h : s.PilotFree) (f : Frame) : (answerCleared s f).PilotFree := by
  simp only [Machine.answerCleared]
  split
  · exact h.answer _ _
  · exact h

theorem denyFrame (h : s.PilotFree) (k : RadioPort) (n : StationId) (f : Frame) : (denyFrame k n f s).PilotFree := by
  simp only [Machine.denyFrame]
  split
  · exact h.answerOn _ _ _
  · exact h.refuseFrame _ _ _

/-- A frame that is forwarded is stored as it came. -/
theorem handleForward (h : s.PilotFree) (n : StationId) {f : Frame} (hf : f.kind ≠ .pilot) (steer : Option AreaId) :
    (handleForward n f steer s).PilotFree := by
  simp only [Machine.handleForward]
  split
  · exact h
  · exact h.offerRadio _ _ _ hf

theorem announcePhase (h : s.PilotFree) : (announcePhase s).PilotFree :=
  (h.foldl (fun _ k h => h.offerRadio k _ _ arena_ne_pilot) _).notice _ _

theorem reply {o : Owned} (h : o.state.PilotFree) (code : Nat) (r : Request) : (reply code r o).PilotFree :=
  h.offerReport _ report_ne_pilot

/-! ### Stations and claims -/

theorem handOver (h : s.PilotFree) (q : Position) : (handOver q s).PilotFree := by
  have given : ∀ e, (s.setClaim q e).PilotFree := fun _ => h.congr
  simp only [Machine.handOver]
  split
  · exact h
  · exact (given _).answer _ _

theorem removeHold (h : s.PilotFree) (n : StationId) (q : Position) : (removeHold n s q).PilotFree := by
  have freed : ∀ e, (s.setClaim q e).PilotFree := fun _ => h.congr
  simp only [Machine.removeHold]
  split
  · exact (freed _).handOver q
  · exact h

theorem purgeCommands (h : s.PilotFree) (n : StationId) : (purgeCommands n s).PilotFree := by
  refine h.shrink fun x f hf => ?_
  split at hf
  · exact List.mem_of_mem_filter hf
  · exact hf

theorem leaveLinked (h : s.PilotFree) (n : StationId) : (leaveLinked n s).PilotFree := by
  have unlisted : (removeWaits n s).PilotFree := h
  have claims : (removeClaims n s).PilotFree := unlisted.foldl (fun _ q h => h.removeHold n q) _
  exact (claims.purgeCommands n).congr (by simp [Machine.leaveLinked])

theorem evaluateHold (h : s.PilotFree) (n : StationId) : (evaluateHold s n).PilotFree := by
  have written : ∀ x, (s.setStation n x).PilotFree := fun _ => h.congr
  simp only [Machine.evaluateHold]
  (repeat' split)
  · exact h
  · exact (written _).arenaTo _ _
  · exact (written _).arenaTo _ _
  · exact written _

theorem evaluatePartners (h : s.PilotFree) (m : StationId) : (evaluatePartners m s).PilotFree :=
  h.foldl (fun s n h => by split; exact h.evaluateHold n; exact h) _

theorem changeStation (h : s.PilotFree) (n : StationId) (x : Station) (arena : Option ArenaNotice) :
    (changeStation n x arena s).PilotFree := by
  have written : (s.setStation n x).PilotFree := h.congr
  have left : State.PilotFree
      (if (s.station n).isLinked then Machine.leaveLinked n (s.setStation n x) else s.setStation n x) := by
    split
    · exact written.leaveLinked n
    · exact written
  have told : ∀ u : State, u.PilotFree →
      State.PilotFree (match arena with | some a => Machine.arenaTo a n u | none => u) := fun u hu => by
    split
    · exact hu.arenaTo _ _
    · exact hu
  exact ((told _ left).notice _ _).evaluatePartners n

theorem disableByVerdict (h : s.PilotFree) (n : StationId) : (disableByVerdict n s).PilotFree := by
  simp only [Machine.disableByVerdict]
  split
  case h_4 | h_5 | h_6 => exact h
  all_goals exact h.changeStation n _ _

theorem quietExpired (h : s.PilotFree) (n : StationId) : (quietExpired n s).PilotFree := by
  simp only [Machine.quietExpired]
  split
  · exact h.changeStation n _ _
  · exact h.congr

theorem resetStation (h : s.PilotFree) (n : StationId) : (resetStation s n).PilotFree := by
  simp only [Machine.resetStation]
  split
  · exact h
  · exact h.congr
  all_goals exact h.changeStation n _ _

theorem enrol (h : s.PilotFree) (n : StationId) (kind : StationKind) (a : Alliance) (team : Nat)
    (partner : Option StationId) : (enrol n kind a team partner s).PilotFree := by
  have written : ∀ x, (s.setStation n x).PilotFree := fun x => h.congr
  simp only [Machine.enrol]
  split
  · exact ((written _).notice _ _).evaluatePartners n
  · exact written _

theorem afterLink (h : s.PilotFree) (n : StationId) (old : StationState) : (afterLink n old s).PilotFree := by
  have told := (h.notice .stationChange [byte (num n), byte old.code, byte StationState.linked.code]).evaluatePartners n
  simp only [Machine.afterLink]
  split
  · exact told.arenaTo _ _
  · exact told

theorem handleJoin (h : s.PilotFree) (k : RadioPort) (n : StationId) (f : FrameBody) : (handleJoin k n f s).PilotFree := by
  have record : (linkRecord n k s).PilotFree := h.congr
  have linked : (answerJoin k n .joinOk f.sequence (linkRecord n k s)).PilotFree := record.answerOn _ _ _
  have refused : ∀ code, (answerJoin k n code f.sequence s).PilotFree := fun _ => h.answerOn _ _ _
  simp only [Machine.handleJoin]
  (repeat' split)
  · exact h
  · exact h
  · exact linked.afterLink _ _
  · exact refused _
  · exact linked.afterLink _ _
  · exact refused _
  · exact linked
  · exact refused _
  · exact refused _

theorem handleBeacon (h : s.PilotFree) (k : RadioPort) (n : StationId) : (handleBeacon k n s).PilotFree := by
  have linked : (linkRecord n k s).PilotFree := h.congr
  simp only [Machine.handleBeacon]
  split
  · exact linked.afterLink _ _
  · exact linked
  all_goals exact h

theorem answerClaim (h : s.PilotFree) (kind : Kind) (n : StationId) (f : FrameBody) (position : Byte) (code : AnswerCode)
    (extra : Nat) : (answerClaim kind n f position code extra s).PilotFree := h.answer _ _

theorem setClaim (h : s.PilotFree) (q : Position) (e : ClaimEntry) : (s.setClaim q e).PilotFree := h.congr

theorem judgeClaim (h : s.PilotFree) (n : StationId) (f : FrameBody) (q : Position) : (judgeClaim n f q s).PilotFree := by
  simp only [Machine.judgeClaim]
  (repeat' split)
  any_goals exact h.answerClaim _ _ _ _ _ _
  all_goals exact (h.setClaim q _).answerClaim _ _ _ _ _ _

theorem handleClaim (h : s.PilotFree) (n : StationId) (f : FrameBody) : (handleClaim n f s).PilotFree := by
  simp only [Machine.handleClaim]
  (repeat' split)
  any_goals exact h.answerClaim _ _ _ _ _ _
  exact h.judgeClaim n f _

theorem handleRelease (h : s.PilotFree) (n : StationId) (f : FrameBody) : (handleRelease n f s).PilotFree := by
  simp only [Machine.handleRelease]
  (repeat' split)
  any_goals exact h.answerClaim _ _ _ _ _ _
  · exact ((h.setClaim _ _).answerClaim _ _ _ _ _ _).handOver _
  · exact (h.setClaim _ _).answerClaim _ _ _ _ _ _

theorem holdExpired (h : s.PilotFree) (q : Position) : (holdExpired q s).PilotFree := by
  simp only [Machine.holdExpired]
  split
  · exact h
  · exact ((h.setClaim q _).answer _ _).handOver q

theorem barExpired (h : s.PilotFree) (q : Position) : (barExpired q s).PilotFree := by
  simp only [Machine.barExpired]
  split
  · exact (h.setClaim q _).handOver q
  · exact h.setClaim q _

/-! ### Commands and the stages of a station frame -/

theorem refuseElement (h : s.PilotFree) (n : StationId) (f : FrameBody) (position : Byte) (code : AnswerCode) (extra : Nat) :
    (refuseElement n f position code extra s).PilotFree := h.answer _ _

theorem handleElement (h : s.PilotFree) (n : StationId) {f : Frame} (hf : f.kind ≠ .pilot) (steer : Option AreaId) :
    (handleElement n f steer s).PilotFree := by
  have charged : ∀ b, (s.setBalance n b).PilotFree := fun _ => h.congr
  simp only [Machine.handleElement, admitCommand, chargeAndStore]
  (repeat' split)
  any_goals exact h.refuseElement _ _ _ _ _
  any_goals exact (h.dropAt _).refuseElement _ _ _ _ _
  all_goals exact (charged _).store _ hf

theorem handleFrame (h : s.PilotFree) (k : RadioPort) (n : StationId) {f : Frame} (hf : f.kind ≠ .pilot)
    (steer : Option AreaId) : (handleFrame k n f steer s).PilotFree := by
  simp only [Machine.handleFrame]
  split
  case h_1 => exact h.handleJoin k n _
  case h_2 => exact h.handleBeacon k n
  case h_3 | h_4 => exact h.handleForward n hf steer
  case h_5 => exact h.handleElement n hf steer
  case h_6 => exact h.handleClaim n _
  case h_7 => exact h.handleRelease n _
  all_goals exact h

theorem applyVerdict (h : s.PilotFree) (u : Rule) (k : RadioPort) (n : StationId) {f : Frame} (hf : f.kind ≠ .pilot) :
    (applyVerdict u k n f s).PilotFree := by
  simp only [Machine.applyVerdict]
  split
  · exact h.handleFrame k n hf _
  · exact (h.offerReport _ report_ne_pilot).handleFrame k n hf _
  · exact h.handleFrame k n hf _
  · exact h.denyFrame k n f
  · exact h
  · exact h.disableByVerdict n

/-- The phase gate lets a PILOT frame through in DRIVER and ENDGAME alone (R40). -/
theorem passPhaseGate (h : s.PilotFree) (still : s.control.phase.isDriven = false) (k : RadioPort) (n : StationId)
    (f : Frame) : (passPhaseGate k n f s).PilotFree := by
  have counted : ∀ i, (countHit i s).PilotFree := fun i => h.congr
  simp only [Machine.passPhaseGate]
  split
  · next through =>
    have hf : f.kind ≠ .pilot := fun pilot => by simp [pilot, phaseAdmits, still] at through
    simp only [applyRules]
    (repeat' split)
    · exact (counted _).applyVerdict _ k n hf
    · exact h.handleFrame k n hf _
    · exact h
  · exact h.refuseFrame _ _ _

theorem stationFrame (h : s.PilotFree) (still : s.control.phase.isDriven = false) (k : RadioPort) (f : Frame) :
    (stationFrame k f s).PilotFree := by
  have heard : ∀ n, (restartQuiet n s).PilotFree := fun n => h.congr
  have roamed : ∀ n, (roam k n (restartQuiet n s)).PilotFree := fun n => (heard n).congr
  simp only [Machine.stationFrame]
  (repeat' split)
  · exact h
  · exact h.answerOn _ _ _
  · exact h
  · exact heard _
  · exact heard _
  · exact (roamed _).passPhaseGate (by simpa using still) k _ f

/-! ### The chain -/

theorem nodeChange (h : s.PilotFree) (q : Position) (old new : NodeState) (e : ChainEnd) :
    (nodeChange q old new e s).PilotFree := h.notice _ _

theorem setNode (h : s.PilotFree) (q : Position) (x : Node) : (s.setNode q x).PilotFree := h.congr

theorem hear (h : s.PilotFree) (q : Position) : (hear q s).PilotFree := by
  simp only [Machine.hear]
  split
  · exact h
  · exact h.setNode _ _
  · exact h.setNode _ _
  · exact (h.setNode _ _).nodeChange _ _ _ _

theorem switchEnd (h : s.PilotFree) (q k : Position) : (switchEnd q k s).PilotFree := by
  simp only [Machine.switchEnd]
  split
  · exact (h.setNode _ _).nodeChange _ _ _ _
  · exact h

theorem chargeMiss (h : s.PilotFree) (q : Position) : (chargeMiss q s).PilotFree := by
  have lost : (Machine.nodeChange q .ready .lost (s.node q).servingEnd
      (s.setNode q { s.node q with state := .lost, misses := Config.maxMisses })).PilotFree := (h.setNode _ _).nodeChange _ _ _ _
  simp only [Machine.chargeMiss, loseNode]
  (repeat' split)
  · exact h
  · exact lost.foldl (fun _ k h => h.switchEnd q k) _
  · exact lost
  all_goals exact h.setNode _ _

theorem endTransaction (h : s.PilotFree) (t : TagId) (outcome : AnswerCode) (value : BitVec 16) :
    (endTransaction t outcome value s).PilotFree := by
  have freed : (s.setTag t none).PilotFree := h.congr
  simp only [Machine.endTransaction]
  (repeat' split)
  · exact h
  · exact freed.answer _ _
  · exact freed
  · exact freed.laterResult _ _ _

theorem abortTags (h : s.PilotFree) (p : TagRecord → Bool) : (abortTags p s).PilotFree :=
  h.foldl (fun s t h => by split; exact h.endTransaction t _ _; exact h) _

theorem replyTimedOut (h : s.PilotFree) (t : TagId) : (replyTimedOut t s).PilotFree := by
  simp only [Machine.replyTimedOut]
  split
  · exact h
  · exact (h.endTransaction t _ _).chargeMiss _

theorem popFrame (h : s.PilotFree) (a : AreaId) : (popFrame a s).PilotFree :=
  h.setArea fun f hf => h a f (List.mem_of_mem_tail hf)

theorem dequeueOne (h : s.PilotFree) : (dequeueOne s).PilotFree := by
  have sent : ∀ u t f, State.PilotFree u → (recheckAndSend t f u).PilotFree := fun u t f hu => by
    simp only [recheckAndSend]
    (repeat' split)
    · exact hu.answer _ _
    · exact hu.congr
    · exact hu
  simp only [Machine.dequeueOne]
  (repeat' split)
  · exact h
  · exact h
  · exact sent _ _ _ (h.popFrame _)

theorem sendPending (h : s.PilotFree) : (sendPending s).PilotFree := by
  simp only [Machine.sendPending]
  split
  · exact h
  · exact h.congr

theorem continueCensus (h : s.PilotFree) (c : Census) : (continueCensus c s).PilotFree := by
  have finished : (finishCensus c.requestTag s).PilotFree := by
    simp only [finishCensus]
    refine State.PilotFree.laterResult ?_ _ _ _
    exact h.congr
  simp only [Machine.continueCensus]
  (repeat' split)
  any_goals exact finished
  all_goals exact h.congr

theorem takeReply (h : s.PilotFree) (q : Position) (tag status : Byte) (value : BitVec 16) :
    (takeReply q tag status value s).PilotFree := by
  simp only [Machine.takeReply]
  (repeat' split)
  · exact h
  · exact h.hear q
  · exact (h.hear q).endTransaction _ _ _

theorem takeSense (h : s.PilotFree) (q : Position) (code : Byte) : (takeSense q code s).PilotFree := by
  simp only [Machine.takeSense]
  split
  · exact h
  · exact (h.hear q).congr

theorem takeProbeReply (h : s.PilotFree) (e : ChainEnd) (q : Position) (kind : NodeKind) :
    (takeProbeReply e q kind s).PilotFree := by
  simp only [Machine.takeProbeReply]
  split
  · exact h.hear q
  · exact ((h.hear q).setNode _ _).continueCensus _

theorem resetChainEnd (h : s.PilotFree) (e : ChainEnd) : (resetChainEnd e s).PilotFree := by
  have cut : (s.setSide e (s.side e).cutOff).PilotFree := h.congr
  have abandoned : ∀ u : State, u.PilotFree → (abandonProbe e u).PilotFree := fun u hu => by
    simp only [abandonProbe]
    split
    · exact hu
    · exact hu.continueCensus _
  exact (abandoned _ (cut.abortTags fun r => decide (r.sentOn = e))).congr (by simp [Machine.resetChainEnd])

theorem resetNode (h : s.PilotFree) (q : Position) : (resetNode q s).PilotFree := by
  have sent : (sendOn (s.node q).servingEnd (addressedMessage .resetNode q) s).PilotFree := h.congr
  have aborted := sent.abortTags fun r => decide (r.position = q)
  simp only [Machine.resetNode]
  (repeat' split)
  · exact aborted.congr
  · exact aborted.congr
  · exact State.PilotFree.nodeChange aborted.congr _ _ _ _
  · exact State.PilotFree.nodeChange aborted.congr _ _ _ _

/-! ### The tally and the phases -/

theorem compareGoal (h : s.PilotFree) (g : GoalSlot) : (compareGoal g s).PilotFree := by
  refine h.foldl (fun s i h => ?_) _
  have written : ∀ r, (s.setRecord g i.1 i.2 r).PilotFree := fun r => h.congr
  simp only [compareRecord]
  (repeat' split)
  · exact h
  · exact written _
  · exact (written _).notice _ _

theorem setTally (h : s.PilotFree) (x : Tally) : (s.setTally x).PilotFree := h.congr

theorem settleExpired (h : s.PilotFree) (g : GoalSlot) : (settleExpired g s).PilotFree := by
  have stopped : (s.setSettle g none).PilotFree := h.congr
  exact stopped.compareGoal g

theorem endFinalSettle (h : s.PilotFree) : (endFinalSettle s).PilotFree := by
  have compared : ∀ u : State, u.PilotFree → ((List.finRange 8).foldl compareConfigured u).PilotFree := fun u hu => by
    refine hu.foldl (fun s g h => ?_) _
    simp only [compareConfigured]
    split
    · exact h.compareGoal g
    · exact h
  exact ((compared _ (h.setTally _)).setTally _).notice _ _

theorem tallyEntry (h : s.PilotFree) (new : Phase) : (tallyEntry new s).PilotFree := by
  simp only [Machine.tallyEntry, startFinalSettle]
  (repeat' split)
  · exact (h.setTally _).endFinalSettle
  · exact h.setTally _
  · exact h

theorem evaluateAll (h : s.PilotFree) : (evaluateAll s).PilotFree := h.foldl (fun _ n h => h.evaluateHold n) _

theorem holdEntry (h : s.PilotFree) (new : Phase) : (holdEntry new s).PilotFree := by
  simp only [Machine.holdEntry]
  split
  · exact h.evaluateAll
  · exact h.congr

/-- The purge leaves no PILOT frame, whatever was stored (R127). -/
theorem purgePilot (s : State) : (purgePilot s).PilotFree := fun a f hf => by
  simp only [State.area, Machine.purgePilot, Table.get_map] at hf
  simpa using List.of_mem_filter hf

theorem queueEntry (h : s.PilotFree) (old new : Phase) : (queueEntry old new s).PilotFree := by
  simp only [Machine.queueEntry]
  split
  · exact purgePilot s
  · exact h

/-! ### The resets and the owners of requests -/

theorem powerOnBlocks (s : State) : (powerOnBlocks s).PilotFree := by
  have empty : ∀ a, (powerOnAreas.get a).frames = [] := fun a => by
    rw [powerOnAreas, Table.get_set, Table.get_fill]
    split <;> rfl
  intro a f hf
  have areas : (Machine.powerOnBlocks s).area a = powerOnAreas.get a := rfl
  rw [areas, empty] at hf
  exact absurd hf List.not_mem_nil

theorem restart (cause : StartCause) (s : State) : (restart cause s).PilotFree := (powerOnBlocks s).notice _ _

theorem emptyStations (h : s.PilotFree) : (emptyStations s).PilotFree := by
  refine h.shrink fun x f hf => ?_
  split at hf
  · exact hf
  · exact absurd hf List.not_mem_nil

theorem resetMatch (h : s.PilotFree) : (resetMatch s).PilotFree := h

theorem clearClaims (h : s.PilotFree) : (clearClaims s).PilotFree := h

theorem fillCredit (h : s.PilotFree) : (fillCredit s).PilotFree := h

/-- What a FIELD_RESET does before SETUP is entered from ENDED. -/
theorem resetStations (h : s.PilotFree) : (Machine.resetMatch (Machine.emptyStations (Machine.fillCredit
    (Machine.clearClaims ((List.finRange 32).foldl Machine.resetStation s))))).PilotFree :=
  (State.PilotFree.foldl (fun _ n h => h.resetStation n) _ h).clearClaims.fillCredit.emptyStations.resetMatch

theorem ownLinkReset (h : s.PilotFree) (r : Request) : (ownLinkReset r s).state.PilotFree := by
  have reset : ∀ e, (Machine.resetChainEnd e s).PilotFree := h.resetChainEnd
  simp only [Machine.ownLinkReset]
  (repeat' split) <;> simp only [done_state, refuse_state, reset, h]
  exact h.congr

theorem ownEnrol (h : s.PilotFree) (r : Request) : (ownEnrol r s).state.PilotFree := by
  simp only [Machine.ownEnrol]
  (repeat' split) <;> simp only [done_state, refuse_state, h]
  all_goals exact h.enrol _ _ _ _ _

theorem ownUnenrol (h : s.PilotFree) (r : Request) : (ownUnenrol r s).state.PilotFree := by
  simp only [Machine.ownUnenrol]
  (repeat' split) <;> simp only [done_state, refuse_state, h]
  exact h.changeStation _ _ _

theorem ownDisable (h : s.PilotFree) (r : Request) : (ownDisable r s).state.PilotFree := by
  simp only [Machine.ownDisable]
  (repeat' split) <;> simp only [done_state, refuse_state, h]
  all_goals exact h.changeStation _ _ _

theorem ownEnable (h : s.PilotFree) (r : Request) : (ownEnable r s).state.PilotFree := by
  simp only [Machine.ownEnable]
  (repeat' split) <;> simp only [done_state, refuse_state, h]
  exact h.changeStation _ _ _

theorem ownEject (h : s.PilotFree) (r : Request) : (ownEject r s).state.PilotFree := by
  simp only [Machine.ownEject]
  (repeat' split) <;> simp only [done_state, refuse_state, h]
  all_goals exact h.changeStation _ _ _

theorem ownPartner (h : s.PilotFree) (r : Request) : (ownPartner r s).state.PilotFree := by
  simp only [Machine.ownPartner, declarePartner, removePartner]
  (repeat' split) <;> simp only [done_state, refuse_state, h]
  all_goals exact h.congr

theorem ownArea (h : s.PilotFree) (r : Request) : (ownArea r s).state.PilotFree := by
  simp only [Machine.ownArea]
  (repeat' split) <;> simp only [done_state, refuse_state, h]
  all_goals exact h.setArea (h _)

theorem ownJoinArea (h : s.PilotFree) (r : Request) : (ownJoinArea r s).state.PilotFree := by
  simp only [Machine.ownJoinArea]
  (repeat' split) <;> simp only [done_state, refuse_state, h]
  exact h.setArea (h _)

theorem ownClearArea (h : s.PilotFree) (r : Request) : (ownClearArea r s).state.PilotFree := by
  simp only [Machine.ownClearArea]
  split
  · exact h
  · next a _ =>
    have cleared : (s.setArea a { s.area a with frames := [] }).PilotFree :=
      h.setArea fun f hf => absurd hf List.not_mem_nil
    simp only [done_state]
    split
    · exact cleared.foldl (fun _ f h => h.answerCleared f) _
    · exact cleared

theorem ownReadArea (h : s.PilotFree) (r : Request) : (ownReadArea r s).state.PilotFree := by
  simp only [Machine.ownReadArea]
  split
  · simp only [done_state]
    split
    · exact h.setArea (h _)
    · exact h
  · exact h

theorem ownCensus (h : s.PilotFree) (r : Request) : (ownCensus r s).state.PilotFree := by
  simp only [Machine.ownCensus]
  (repeat' split)
  · exact h
  · exact h
  · exact h.congr

theorem ownElementDirect (h : s.PilotFree) (r : Request) : (ownElementDirect r s).state.PilotFree := by
  simp only [Machine.ownElementDirect]
  (repeat' split) <;> simp only [refuse_state, accepted_state, h]
  all_goals exact h.congr

theorem ownResetNode (h : s.PilotFree) (r : Request) : (ownResetNode r s).state.PilotFree := by
  simp only [Machine.ownResetNode]
  (repeat' split) <;> simp only [done_state, refuse_state, h]
  exact h.resetNode _

theorem ownRuling (h : s.PilotFree) (r : Request) : (ownRuling r s).state.PilotFree := by
  have ruled : ∀ g a p x, (s.setRecord g a p x).PilotFree := fun g a p x => h.congr
  simp only [Machine.ownRuling]
  (repeat' split) <;> simp only [done_state, refuse_state, h]
  exact (ruled _ _ _ _).notice _ _

theorem ownPoints (h : s.PilotFree) (r : Request) (add : Tally → Alliance → Nat → Tally) :
    (ownPoints r add s).state.PilotFree := by
  simp only [Machine.ownPoints]
  (repeat' split) <;> simp only [done_state, refuse_state, h]
  exact (h.setTally _).notice _ _

end State.PilotFree

/-! ### The invariant -/

/-- A change of phase that leaves DRIVER and ENDGAME goes to PAUSED or ENDED, where the PILOT frames are purged (R127). -/
def Phase.Leaves (old new : Phase) : Prop :=
  old.isDriven = true → new.isDriven = false → (new.isPaused || new.isEnded) = true

theorem Phase.leaves_of_still {old new : Phase} (h : old.isDriven = false) : old.Leaves new :=
  fun driven => nomatch h.symm.trans driven

theorem PhaseControl.leaves_successor (c : PhaseControl) (r : Running) : (Phase.running r).Leaves (c.successor r).1 := by
  cases r with
  | auto => exact Phase.leaves_of_still rfl
  | transit => exact Phase.leaves_of_still rfl
  | driver => exact fun _ still => nomatch still
  | endgame => exact fun _ _ => rfl

namespace State.pilotFits

variable {s t : State}

theorem free (h : s.pilotFits) (still : s.control.phase.isDriven = false) : s.PilotFree := h still

theorem of_free (h : t.PilotFree) : t.pilotFits := fun _ => h

/-- An operation in one phase need only keep the areas free of PILOT frames outside DRIVER and ENDGAME. -/
theorem keep (h : s.pilotFits) (phase : t.control.phase = s.control.phase)
    (kept : s.control.phase.isDriven = false → s.PilotFree → t.PilotFree) : t.pilotFits := fun still => by
  rw [phase] at still
  exact kept still (h still)

theorem enterPhase (h : s.pilotFits) {new : Phase} (leaves : s.control.phase.Leaves new) (timer : Nat) :
    (enterPhase new timer s).pilotFits := by
  intro still
  have phase : (Machine.enterPhase new timer s).control.phase = new := by simp [Machine.enterPhase, State.setControl]
  rw [phase] at still
  have purged : ∀ u : State, (s.control.phase.isDriven = false → u.PilotFree) →
      (queueEntry s.control.phase new u).PilotFree := fun u hu => by
    cases driven : s.control.phase.isDriven with
    | false => exact (hu driven).queueEntry _ _
    | true =>
      rw [queueEntry, driven, Bool.true_and, if_pos (leaves driven still)]
      exact .purgePilot u
  simp only [Machine.enterPhase]
  refine State.PilotFree.tallyEntry ?_ new
  refine State.PilotFree.congr (purged _ fun old => ?_) (chainEntry_areas _ _ _)
  have written : State.PilotFree (s.setControl { s.control with
      phase := new, timer, accumulator := entryAccumulator new s.control.accumulator }) := h.free old
  exact (written.announcePhase.holdEntry new).congr

theorem passThroughIn (k : Nat) (h : s.pilotFits) : (passThroughIn k s).pilotFits := by
  induction k generalizing s with
  | zero => exact h
  | succ k ih =>
    simp only [Machine.passThroughIn]
    (repeat' split)
    · next r running _ => exact ih (h.enterPhase (running ▸ s.control.leaves_successor r) _)
    · exact h
    · exact h

theorem passThrough (h : s.pilotFits) : (passThrough s).pilotFits := h.passThroughIn 4

theorem silenceExpired (h : s.pilotFits) : (silenceExpired s).pilotFits := by
  have stopped : (s.setControl { s.control with silence := none }).pilotFits := h
  simp only [Machine.silenceExpired]
  split
  · exact stopped.enterPhase (fun _ _ => rfl) _
  · exact stopped

theorem elapse (h : s.pilotFits) (k : Nat) : (elapse k s).pilotFits := h.keep (by simp) fun _ free => free.congr

/-! ### The owners of requests -/

theorem ownFieldReset (h : s.pilotFits) : (ownFieldReset s).state.pilotFits := by
  simp only [Machine.ownFieldReset]
  split
  · exact h
  · next between =>
    split
    · exact h
    · have free := h.free (Phase.isDriven_of_isBetween (by simpa using between))
      have phase : (resetMatch (emptyStations (fillCredit (clearClaims
          ((List.finRange 32).foldl Machine.resetStation s))))).control.phase = s.control.phase := by
        have folded := foldl_keeps (fun s => s.control) (f := Machine.resetStation) (fun s n => by simp) (List.finRange 32) s
        simp only [resetMatch, emptyStations_control, fillCredit_control, clearClaims_control, folded]
      simp only [done_state, fieldReset]
      split
      · have still := Phase.isDriven_of_isBetween (by simpa using between)
        exact (of_free free.resetStations).enterPhase (Phase.leaves_of_still (by rw [phase]; exact still)) _
      · exact of_free free.resetStations

theorem ownStage (h : s.pilotFits) : (ownStage s).state.pilotFits := by
  simp only [Machine.ownStage]
  (repeat' split)
  any_goals exact h
  next setup _ _ _ _ => exact h.enterPhase (Phase.leaves_of_still (by rw [Classical.not_not.mp setup]; rfl)) _

theorem ownUnstage (h : s.pilotFits) : (ownUnstage s).state.pilotFits := by
  simp only [Machine.ownUnstage]
  split
  · next staged => exact h.enterPhase (Phase.leaves_of_still (by rw [staged]; rfl)) _
  · exact h

theorem ownStart (h : s.pilotFits) : (ownStart s).state.pilotFits := by
  have cleared : (s.setControl { s.control with accumulator := 0 }).pilotFits := h
  simp only [Machine.ownStart]
  split
  · next staged =>
    exact (cleared.enterPhase (Phase.leaves_of_still (by simp [State.setControl, staged, Phase.isDriven])) _).passThrough
  · exact h

theorem ownPause (h : s.pilotFits) : (ownPause s).state.pilotFits := by
  simp only [Machine.ownPause]
  split
  · exact h.enterPhase (fun _ _ => rfl) _
  · exact h

theorem ownResume (h : s.pilotFits) : (ownResume s).state.pilotFits := by
  simp only [Machine.ownResume]
  split
  · next paused => exact (h.enterPhase (Phase.leaves_of_still (by rw [paused]; rfl)) _).passThrough
  · exact h

theorem ownAbort (h : s.pilotFits) : (ownAbort s).state.pilotFits := by
  simp only [Machine.ownAbort]
  split
  · exact h.enterPhase (fun _ _ => rfl) _
  · exact h.enterPhase (fun _ _ => rfl) _
  · exact h

theorem ownerOf (h : s.pilotFits) (code : Nat) (r : Request) : (ownerOf code r s).state.pilotFits := by
  have kept : ∀ {o : Owned}, o.state.control.phase = s.control.phase → (s.PilotFree → o.state.PilotFree) →
      o.state.pilotFits := fun phase k => h.keep phase fun _ => k
  unfold Machine.ownerOf
  split
  any_goals simp only [h.ownFieldReset, h.ownStage, h.ownUnstage, h.ownStart, h.ownPause, h.ownResume, h.ownAbort]
  all_goals refine kept (by simp) fun free => ?_
  any_goals simp only [free.ownLinkReset, free.ownEnrol, free.ownUnenrol, free.ownDisable, free.ownEnable, free.ownEject,
    free.ownArea, free.ownJoinArea, free.ownClearArea, free.ownReadArea, free.ownCensus, free.ownElementDirect,
    free.ownPartner, free.ownResetNode, free.ownRuling, free.ownPoints]
  case h_2 | h_46 => exact free
  all_goals simp only [ownReadStatus, ownReadStation, ownStaleLimit, ownWriteRule, ownReadRule, ownRuleCount, ownKindDefault,
    ownMapWindow, ownHide, ownProfile, ownReadMap, ownReadClaim, ownCreditParams, ownReadCredit, ownChainConfig,
    ownReadNode, ownPhaseTimes, ownSilenceLimit, ownGoalConfig, ownReadScore]
  all_goals (repeat' split)
  all_goals exact free.congr

/-! ### The effects -/

theorem takeFrame (h : s.pilotFits) (p : Port) : (takeFrame p s).pilotFits := by
  simp only [Machine.takeFrame]
  (repeat' split)
  · exact h
  · exact h
  · next a _ _ _ _ => exact h.keep (by simp) fun _ free => (free.popFrame a).congr

theorem effect (h : s.pilotFits) (e : Effect s t) : t.pilotFits := by
  have idle : ∀ k, (receiveIdle k s).pilotFits := fun k => h.keep (by simp) fun _ free => free.congr
  cases e with
  | kept => exact h
  | restarted cause => exact of_free (.restart cause s)
  | station k f =>
    exact (idle _).keep (by simp) fun still free => free.stationFrame still k f
  | owned code r =>
    have arrived : (mgmtArrives s).pilotFits := h.keep (by simp) fun _ free => free.congr
    exact (arrived.ownerOf code r).keep (by simp) fun _ free => free.reply code r
  | refused code r x =>
    have arrived : (mgmtArrives s).pilotFits := h.keep (by simp) fun _ free => free.congr
    exact arrived.keep (by simp) fun _ free => State.PilotFree.reply (by exact free) code r
  | took p => exact h.takeFrame p
  | replied q tag status value => exact h.keep (by simp) fun _ free => free.takeReply q tag status value
  | sensed q code => exact h.keep (by simp) fun _ free => free.takeSense q code
  | probed e q kind => exact h.keep (by simp) fun _ free => free.takeProbeReply e q kind
  | dequeued => exact h.keep (by simp) fun _ free => free.dequeueOne
  | sentPending => exact h.keep (by simp) fun _ free => free.sendPending
  | quiet n k => exact (h.elapse k).keep (by simp) fun _ free => free.quietExpired n
  | hold q k => exact (h.elapse k).keep (by simp) fun _ free => free.holdExpired q
  | bar q k => exact (h.elapse k).keep (by simp) fun _ free => free.barExpired q
  | timeout t k => exact (h.elapse k).keep (by simp) fun _ free => free.replyTimedOut t
  | unanswered c k => exact (h.elapse k).keep (by simp) fun _ free => free.continueCensus c
  | settled g k => exact (h.elapse k).keep (by simp) fun _ free => free.settleExpired g
  | final k => exact (h.elapse k).keep (by simp) fun _ free => free.endFinalSettle
  | phase k => exact (h.elapse k).passThrough
  | silence k => exact (h.elapse k).silenceExpired
  | tick k => exact (h.elapse k).keep rfl fun _ free => free
  | discarded p => exact h.keep (by simp) fun _ free => free.congr
  | short => exact h.keep (by simp) fun _ free => free.congr
  | framer p x => exact h.keep (by simp) fun _ free => free.congr
  | sentNext e => exact h.keep (by simp) fun _ free => free.congr

theorem step (h : s.pilotFits) (hs : step s = .next t) : t.pilotFits :=
  step_keeps (fun _ _ h => h) (fun _ h => h.elapse 1) (fun _ _ h e => h.effect e) h hs

end State.pilotFits

end Sys2Proof.Machine
end

section
/-! SUPPORT. The settled statement about the held flags and the PILOT frames. -/

-- One theorem after the other: each elaboration task that runs beside another takes a stack from the check's memory limit.
set_option Elab.async false

namespace Sys2Proof.Machine

/-- Settles O55: each flag is kept by itself, over the effects that every step is one of. A write of a station's record or of
the phase is followed by the evaluation of the robots it bears on, and the phases DRIVER and ENDGAME are left through the purge of
the PILOT frames. -/
theorem everyStepKeepsHeldRobotsAndPilotFrames : Obligations.EveryStepKeepsHeldRobotsAndPilotFrames :=
  ⟨fun _ _ h hs => h.step hs, fun _ _ h hs => h.step hs⟩

end Sys2Proof.Machine
end

section
/-! SUPPORT. How time counts: the real-time timers field by field in every phase, and the match-time timers in the running
phases alone. -/

-- One theorem after the other: each elaboration task that runs beside another takes a stack from the check's memory limit.
set_option Elab.async false

namespace Sys2Proof.Machine

variable {s : State}

/-! ### Real time, in every phase -/

theorem elapse_stations (n : Nat) (s : State) : (elapse n s).stations = (realTime n s).stations := by
  rw [elapse]; split <;> rfl

theorem elapse_chain (n : Nat) (s : State) : (elapse n s).chain = (realTime n s).chain := by
  rw [elapse]; split <;> rfl

theorem elapse_tally (n : Nat) (s : State) : (elapse n s).tally = (realTime n s).tally := by
  rw [elapse]; split <;> rfl

theorem elapse_silence (n : Nat) (s : State) : (elapse n s).control.silence = s.control.silence.map (· - n) := by
  rw [elapse]; split <;> rfl

/-- Of a station's record, time counts the quiet timer alone (R19). -/
theorem elapse_station (n : Nat) (s : State) (k : StationId) :
    (elapse n s).station k = { s.station k with quiet := (s.station k).quiet.map (· - n) } := by
  rw [State.station, elapse_stations]
  simp only [realTime, Table.get_map]
  rfl

theorem elapse_tag (n : Nat) (s : State) (k : TagId) :
    (elapse n s).tag k = (s.tag k).map fun r => { r with timer := r.timer - n } := by
  rw [State.tag, elapse_chain]
  simp only [realTime, Table.get_map]
  rfl

theorem elapse_census (n : Nat) (s : State) :
    (elapse n s).chain.census = s.chain.census.map fun c => { c with timer := c.timer - n } := by
  rw [elapse_chain]; rfl

theorem elapse_settle (n : Nat) (s : State) (g : GoalSlot) :
    (elapse n s).tally.settle.get g = (s.tally.settle.get g).map (· - n) := by
  rw [elapse_tally]
  exact Table.get_map ..

theorem elapse_final_running {r : Nat} (n : Nat) (h : s.tally.final = .running r) :
    (elapse n s).tally.final = .running (r - n) := by
  rw [elapse_tally]
  simp only [realTime, h]

theorem elapse_final_stopped (n : Nat) (h : s.tally.final = .idle ∨ s.tally.final = .done) :
    (elapse n s).tally.final = s.tally.final := by
  rw [elapse_tally]
  rcases h with h | h <;> simp only [realTime, h]

/-! ### Match time, in the running phases -/

theorem elapse_claim_of_running (n : Nat) (h : s.control.phase.isRunning = true) (q : Position) :
    (elapse n s).claim q = { s.claim q with
      hold := (s.claim q).hold.map fun h => { h with remaining := h.remaining - n }
      bar := (s.claim q).bar.map fun b => { b with remaining := b.remaining - n } } := by
  rw [elapse_of_running n h, State.claim]
  simp only [matchTime, Table.get_map]
  rfl

theorem elapse_timer_of_running (n : Nat) (h : s.control.phase.isRunning = true) :
    (elapse n s).control.timer = s.control.timer - n := by rw [elapse_of_running n h]; rfl

/-- The accumulator leaves 0 as soon as match time passes: a tick due at the end of the time waits at 10 (R160). -/
theorem elapse_accumulator_pos {n : Nat} (h : s.control.phase.isRunning = true) (pos : 0 < n) :
    0 < (elapse n s).control.accumulator := by
  rw [elapse_of_running n h]
  simp only [matchTime, realTime, PhaseControl.ticksWithin, Config.tickLength]
  omega

theorem elapse_balance_of_running {n : Nat} (h : s.control.phase.isRunning = true) (ticks : 0 < s.control.ticksWithin n)
    (k : StationId) : (elapse n s).balance k
      = min (16 * s.credit.burst) (s.balance k + s.control.ticksWithin n * s.credit.rate) := by
  rw [State.balance, elapse_credit_of_running n h, Credit.get_ticks, if_neg (Nat.ne_of_gt ticks)]
  rfl

/-- The credit ticks of n ms of match time: one for each full 10 ms of the accumulator, each refilling the balances. -/
theorem elapse_creditTicks {n : Nat} (h : s.control.phase.isRunning = true) (le : s.control.accumulator ≤ 10) :
    let t := elapse n s
    ∃ ticks, s.control.accumulator + n = 10 * ticks + t.control.accumulator ∧ t.control.accumulator ≤ 10
      ∧ (n = 0 ∧ ticks = 0 ∨ 0 < t.control.accumulator)
      ∧ (ticks = 0 → t.credit = s.credit)
      ∧ (0 < ticks → ∀ k, t.balance k = min (16 * s.credit.burst) (s.balance k + ticks * s.credit.rate)) := by
  obtain ⟨total, last⟩ := elapse_accumulator n h le
  refine ⟨s.control.ticksWithin n, total, last, ?_, fun none => ?_, elapse_balance_of_running h⟩
  · rcases Nat.eq_zero_or_pos n with rfl | pos
    · exact .inl ⟨rfl, PhaseControl.ticksWithin_zero _⟩
    · exact .inr (elapse_accumulator_pos h pos)
  · rw [elapse_credit_of_running n h, none, Credit.ticks_zero]

/-- The refills write the balances alone. -/
theorem Credit.ticks_eq_balances (k : Nat) (c : Credit) : c.ticks k = { c with balances := (c.ticks k).balances } := by
  rw [Credit.ticks]
  split <;> rfl

/-- Time writes the timers and the balances alone. -/
theorem elapse_eq (n : Nat) (s : State) : let t := elapse n s
    t = { s with
      stations := { s.stations with records := t.stations.records }
      claims := t.claims
      credit := { s.credit with balances := t.credit.balances }
      chain := { s.chain with tags := t.chain.tags, census := t.chain.census }
      control := { s.control with
        timer := t.control.timer, silence := t.control.silence, accumulator := t.control.accumulator }
      tally := { s.tally with settle := t.tally.settle, final := t.tally.final } } := by
  cases h : s.control.phase.isRunning with
  | false => simp only [elapse_of_still n h, realTime]
  | true =>
    rw [elapse_of_running n h]
    exact congrArg (fun c => { matchTime n (realTime n s) with credit := c })
      (Credit.ticks_eq_balances (s.control.ticksWithin n) s.credit)

/-- Settles O4: the real-time timers count whatever the phase is, and the rest follows the phase. -/
theorem timersCountRealOrMatchTime : Obligations.TimersCountRealOrMatchTime := by
  intro n s t c
  refine ⟨elapse_station n s, elapse_tag n s, elapse_census n s, elapse_silence n s, elapse_settle n s,
    fun r => elapse_final_running n, elapse_final_stopped n, fun running => ?_, fun still => ?_, elapse_eq n s⟩
  · exact ⟨elapse_claim_of_running n running, elapse_timer_of_running n running, elapse_creditTicks running⟩
  · have counted : t = realTime n s := elapse_of_still n still
    rw [counted]
    exact ⟨rfl, rfl, rfl, rfl⟩

end Sys2Proof.Machine
end

section
/-! SUPPORT. The reads: the bytes of the tables, the sets and the counts in them, and the three outcomes of a read that names
a record or, with 0, all. -/

-- One theorem after the other: each elaboration task that runs beside another takes a stack from the check's memory limit.
set_option Elab.async false

namespace Sys2Proof.Machine

/-! ### Sets as bits -/

/-- The number whose bit j is b j, for j below n. -/
def bitSum (b : Nat → Bool) (n : Nat) : Nat := (List.range n).foldl (fun acc j => acc + if b j then 2 ^ j else 0) 0

theorem bitSum_succ (b : Nat → Bool) (n : Nat) : bitSum b (n + 1) = bitSum b n + if b n then 2 ^ n else 0 := by
  simp [bitSum, List.range_succ]

theorem bitSum_lt (b : Nat → Bool) (n : Nat) : bitSum b n < 2 ^ n := by
  induction n with
  | zero => simp [bitSum]
  | succ n ih =>
    rw [bitSum_succ, Nat.pow_succ]
    split <;> omega

theorem testBit_bitSum (b : Nat → Bool) {j n : Nat} (h : j < n) : (bitSum b n).testBit j = b j := by
  induction n with
  | zero => omega
  | succ n ih =>
    have top : (bitSum b n).testBit n = false := Nat.testBit_lt_two_pow (bitSum_lt b n)
    rw [bitSum_succ, Nat.add_comm]
    rcases Nat.lt_succ_iff_lt_or_eq.mp h with below | rfl
    · cases b n <;> simp [Nat.testBit_two_pow_add_gt below, ih below]
    · cases hb : b j <;> simp [Nat.testBit_two_pow_add_eq, top]

theorem getLsbD_byte_bitSum (b : Nat → Bool) {j : Nat} (h : j < 8) : (byte (bitSum b 8)).getLsbD j = b j := by
  rw [byte, BitVec.getLsbD_ofNat, testBit_bitSum b h]
  simp [h]

/-- Byte k of a set has a bit for each of the positions 8k + 1 to 8k + 8. -/
theorem setBytes_eq (t : Table Bool 32) :
    setBytes t = [0, 8, 16, 24].map fun k => byte (bitSum (fun j => t.items.getD (k + j) false) 8) := rfl

theorem setBytes_getLsbD (t : Table Bool 32) (k : Fin 4) (j : Fin 8) (q : Position) (h : q.val = 8 * k.val + j.val) :
    ((setBytes t).getD k.val 0).getLsbD j.val = t.get q := by
  have entry : (setBytes t).getD k.val 0 = byte (bitSum (fun i => t.items.getD (8 * k.val + i) false) 8) := by
    rw [setBytes_eq]
    fin_cases k <;> rfl
  rw [entry, getLsbD_byte_bitSum _ j.isLt, ← h, Table.get_eq, List.getD_eq_getElem]

theorem tagsInUse_getLsbD (s : State) (t : TagId) : (byte (tagsInUse s)).getLsbD t.val = (s.tag t).isSome := by
  have sum : tagsInUse s = bitSum (fun j => if h : j < 8 then (s.tag ⟨j, h⟩).isSome else false) 8 := by
    rw [tagsInUse, bitSum, ← List.map_coe_finRange_eq_range, List.foldl_map]
    simp
  rw [sum, getLsbD_byte_bitSum _ t.isLt, dif_pos t.isLt]

/-! ### Roles and counts -/

theorem role_partner {m : ArenaMap} {q : Position} (h : m.partners.get q = true) : m.role q = 2 := if_pos h

theorem role_lead {m : ArenaMap} {q p : Position} (h : m.partners.get q = false) (next : p.val = q.val + 1)
    (partner : m.partners.get p = true) : m.role q = 1 := by
  have lead : m.isLead q = true := by
    rw [ArenaMap.isLead, dif_pos (by omega)]
    simpa only [← next] using partner
  rw [ArenaMap.role, ArenaMap.isPartner, h, lead]
  rfl

theorem role_ordinary {m : ArenaMap} {q : Position} (h : m.partners.get q = false)
    (next : ∀ p : Position, p.val = q.val + 1 → m.partners.get p = false) : m.role q = 0 := by
  have lead : m.isLead q = false := by
    rw [ArenaMap.isLead]
    split
    · exact next _ rfl
    · rfl
  rw [ArenaMap.role, ArenaMap.isPartner, h, lead]
  rfl

theorem Table.count_eq_countP {α : Type} {n : Nat} (t : Table α n) (p : α → Bool) :
    t.count p = (List.finRange n).countP fun i => p (t.get i) := by
  rw [Table.count, Table.items_eq_map_get, List.countP_map]
  rfl

theorem partners_count (t : Table Bool 32) : t.count id = ((List.finRange 32).filter fun p => t.get p).length := by
  rw [Table.count_eq_countP, List.countP_eq_length_filter]
  rfl

theorem disputedCount_eq (s : State) : s.disputedCount =
    ((List.finRange 8).flatMap fun g => (List.finRange 4).flatMap fun a => [Period.auto, .driver, .endgame].filter fun p =>
      decide ((s.record g a p).state = .disputed)).length := by
  rw [State.disputedCount, List.length_flatMap]
  refine congrArg List.sum (List.map_congr_left fun g _ => ?_)
  rw [recordOrder, List.countP_flatMap, List.length_flatMap]
  refine congrArg List.sum (List.map_congr_left fun a _ => ?_)
  rw [Function.comp_apply, List.countP_map, List.countP_eq_length_filter]
  rfl

/-! ### The bytes of the tables -/

theorem finRange_four : List.finRange 4 = [0, 1, 2, 3] := rfl

theorem mapData_eq (m : ArenaMap) :
    mapData m = (m.homes.get 0).bytes ++ (m.homes.get 1).bytes ++ (m.homes.get 2).bytes ++ (m.homes.get 3).bytes
      ++ m.shared.bytes ++ setBytes m.hideSet ++ setBytes m.partners ++ [byte (m.partners.count id)] := by
  simp only [mapData, partnerData, ArenaMap.partnerCount, Table.items_eq_map_get m.homes, finRange_four, List.map_cons,
    List.map_nil, List.flatMap_cons, List.flatMap_nil, List.append_nil, List.append_assoc]

theorem positionData_eq (m : ArenaMap) (q : Position) :
    positionData m q = be16 (m.profiles.get q).maxHold ++ be16 (m.profiles.get q).barTime
      ++ [byte (m.profiles.get q).costLow, byte (m.profiles.get q).costHigh, byte (m.role q),
          byte (m.decode 0 q).code, byte (m.decode 1 q).code, byte (m.decode 2 q).code, byte (m.decode 3 q).code] := rfl

theorem holders_eq (s : State) : (s.claims.items.map fun e => byte (e.hold.elim 0 fun h => num h.holder))
    = (List.finRange 32).map fun q => match (s.claim q).hold with
        | some h => byte (h.holder.val + 1)
        | none => 0 := by
  rw [Table.items_eq_map_get, List.map_map]
  refine List.map_congr_left fun q _ => ?_
  change byte ((s.claim q).hold.elim 0 fun h => num h.holder) = _
  cases (s.claim q).hold <;> rfl

theorem balances_eq (s : State) : s.credit.balances.items.map byte = (List.finRange 32).map fun n => byte (s.balance n) := by
  rw [Table.items_eq_map_get, List.map_map]
  rfl

theorem nodeStates_eq (s : State) : (s.chain.nodes.items.map fun x => byte x.state.code)
    = (List.finRange 32).map fun q => byte (s.node q).state.code := by
  rw [Table.items_eq_map_get, List.map_map]
  rfl

theorem claimData_eq (m : ArenaMap) (q : Position) (e : ClaimEntry) :
    claimData m q e = (match e.hold with
        | some h => [1, byte (h.holder.val + 1)] ++ be16 h.remaining
        | none => [0, 0, 0, 0])
      ++ (match e.bar with
        | some bar => [byte bar.alliance.val] ++ be16 bar.remaining
        | none => [255, 0, 0])
      ++ [byte (m.role q), byte e.waiters.length]
      ++ e.waiters.flatMap fun w => [byte (w.station.val + 1)] ++ be16 w.requested := by
  have zero : be16 0 = [0, 0] := by decide
  obtain ⟨hold, bar, waiters⟩ := e
  cases hold <;> cases bar <;> simp [claimData, zero, num, byte]

/-- The transactions that stand at a position are counted over the tag records. -/
theorem tagCount_eq (s : State) (q : Position) : (s.chain.tags.count fun t => t.any fun r => decide (r.position = q))
    = (List.finRange 8).countP fun t => (s.tag t).any fun z => decide (z.position = q) := Table.count_eq_countP _ _

theorem scoreBytes_eq (s : State) :
    s.scoreBytes = be16 (s.score 0) ++ be16 (s.score 1) ++ be16 (s.score 2) ++ be16 (s.score 3) := rfl

theorem points_eq (t : Table Nat 4) :
    t.items.flatMap be16 = be16 (t.get 0) ++ be16 (t.get 1) ++ be16 (t.get 2) ++ be16 (t.get 3) := by
  rw [Table.items_eq_map_get, finRange_four]
  rfl

theorem chainData_eq (s : State) : chainData s =
    ([match s.chain.mode with | .line => 0 | .ring => 1] : List Byte) ++ be16 s.chain.replyTimeout
      ++ [if s.chain.halted then 1 else 0,
          match s.chain.census with | none => 0 | some c => match c.pass with | .ca => 1 | .cb => 2,
          if s.chain.slot.isSome then 1 else 0, byte (tagsInUse s)]
      ++ (List.finRange 32).map fun q => byte (s.node q).state.code := by
  have mode : byte s.chain.mode.code = match s.chain.mode with | .line => 0 | .ring => 1 := by cases s.chain.mode <;> rfl
  have census : byte (censusCode s.chain.census)
      = match s.chain.census with | none => 0 | some c => match c.pass with | .ca => 1 | .cb => 2 := by
    rcases s.chain.census with _ | ⟨_, _ | _, _, _⟩ <;> rfl
  have flag : ∀ b : Bool, byte b.toNat = if b then 1 else 0 := by decide
  rw [chainData, nodeStates_eq, mode, census, flag, flag]

theorem nodeData_eq (s : State) (q : Position) : nodeData s q =
    [byte (s.node q).state.code, match (s.node q).kind with | some kind => byte kind.code | none => 255,
      match (s.node q).servingEnd with | .ca => 0 | .cb => 1, byte (s.node q).misses,
      byte ((List.finRange 8).countP fun t => (s.tag t).any fun z => decide (z.position = q))] := by
  have kind : byte ((s.node q).kind.elim 0xFF NodeKind.code)
      = match (s.node q).kind with | some kind => byte kind.code | none => 255 := by cases (s.node q).kind <;> rfl
  have serving : byte (s.node q).servingEnd.code = match (s.node q).servingEnd with | .ca => 0 | .cb => 1 := by
    cases (s.node q).servingEnd <;> rfl
  rw [nodeData, tagCount_eq, kind, serving]

theorem summaryData_eq (s : State) : s.summaryData =
    be16 (s.score 0) ++ be16 (s.score 1) ++ be16 (s.score 2) ++ be16 (s.score 3)
      ++ (be16 (s.tally.bonus.get 0) ++ be16 (s.tally.bonus.get 1) ++ be16 (s.tally.bonus.get 2) ++ be16 (s.tally.bonus.get 3))
      ++ (be16 (s.tally.penalty.get 0) ++ be16 (s.tally.penalty.get 1) ++ be16 (s.tally.penalty.get 2)
        ++ be16 (s.tally.penalty.get 3))
      ++ [match s.tally.final with | .idle => 0 | .running _ => 1 | .done => 2, byte s.disputedCount] := by
  have final : byte s.tally.final.code = match s.tally.final with | .idle => 0 | .running _ => 1 | .done => 2 := by
    cases s.tally.final <;> rfl
  rw [State.summaryData, scoreBytes_eq, points_eq, points_eq, final]

theorem goalData_eq (s : State) (g : GoalSlot) (a : Alliance) : s.goalData g a =
    be16 (s.score 0) ++ be16 (s.score 1) ++ be16 (s.score 2) ++ be16 (s.score 3)
      ++ [match (s.goal g).position with | some q => byte (q.val + 1) | none => 0, byte (s.goal g).wAuto,
          byte (s.goal g).wDriver, byte (s.goal g).wEndgame, byte (s.goal g).tolerance]
      ++ be16 (s.goal g).settleTime ++ be16 ((s.tally.settle.get g).getD 0)
      ++ (s.record g a .auto).bytes ++ (s.record g a .driver).bytes ++ (s.record g a .endgame).bytes := by
  have position : byte ((s.goal g).position.elim 0 num)
      = match (s.goal g).position with | some q => byte (q.val + 1) | none => 0 := by cases (s.goal g).position <;> rfl
  simp only [State.goalData, scoreBytes_eq, position, Period.all, List.flatMap_cons, List.flatMap_nil, List.append_nil,
    List.append_assoc]

/-! ### A read that names one record or all -/

/-- What a read answers whose argument is 0 for all records, and else the number of one. -/
def readOf (k : Nat) (all : List Byte) (one : Fin 32 → List Byte) (s : State) : Owned :=
  if k = 0 then done s all
  else match ofNum 32 k with
    | none => refuse .badArgument s
    | some q => done s (one q)

theorem readOf_all {k : Nat} (h : k = 0) (all : List Byte) (one : Fin 32 → List Byte) (s : State) :
    readOf k all one s = done s all := if_pos h

theorem readOf_one {k : Nat} {q : Fin 32} (h : k = q.val + 1) (all : List Byte) (one : Fin 32 → List Byte) (s : State) :
    readOf k all one s = done s (one q) := by
  rw [readOf, if_neg (by omega), ofNum_of q h]

theorem readOf_bad {k : Nat} (h : 32 < k) (all : List Byte) (one : Fin 32 → List Byte) (s : State) :
    readOf k all one s = refuse .badArgument s := by
  rw [readOf, if_neg (by omega), ofNum_bad (.inr h)]

section
variable {r : Request} {s : State}

theorem exec_readMap (h : r.args.length ≤ 46) (n : 1 ≤ r.args.length) : exec (.readMap r) s
    = .next (reply 0x34 r (readOf (byteAt r.args 0) (mapData s.map) (fun q => mapData s.map ++ positionData s.map q)
        (mgmtArrives s))) := takeRequest_taken h n

theorem exec_readClaim (h : r.args.length ≤ 46) (n : 1 ≤ r.args.length) : exec (.readClaim r) s
    = .next (reply 0x38 r (readOf (byteAt r.args 0) (s.claims.items.map fun e => byte (e.hold.elim 0 fun h => num h.holder))
        (fun q => claimData s.map q (s.claim q)) (mgmtArrives s))) := takeRequest_taken h n

theorem exec_readCredit (h : r.args.length ≤ 46) (n : 1 ≤ r.args.length) : exec (.readCredit r) s
    = .next (reply 0x3D r (readOf (byteAt r.args 0) (s.credit.head ++ s.credit.balances.items.map byte)
        (fun q => s.credit.head ++ [byte (s.balance q)]) (mgmtArrives s))) := takeRequest_taken h n

theorem exec_readNode (h : r.args.length ≤ 46) (n : 1 ≤ r.args.length) : exec (.readNode r) s
    = .next (reply 0x54 r (readOf (byteAt r.args 0) (chainData s) (nodeData s) (mgmtArrives s))) := takeRequest_taken h n

end

/-! ### The requests -/

section
variable {r : Request} {s : State}

theorem exec_keepalive (h : r.args.length ≤ 46) : exec (.keepalive r) s = .next (reply 0x02 r (done (mgmtArrives s))) :=
  takeRequest_taken (code := 0x02) (owner := fun s => done s) h (Nat.zero_le _)

theorem exec_readScore (h : r.args.length ≤ 46) (n : 2 ≤ r.args.length) :
    exec (.readScore r) s = .next (reply 0x74 r (ownReadScore r (mgmtArrives s))) := takeRequest_taken h n

theorem ownReadScore_all (h : byteAt r.args 0 = 255) : ownReadScore r s = done s s.summaryData := if_pos h

theorem ownReadScore_one {g : GoalSlot} {a : Alliance} (hg : byteAt r.args 0 = g.val) (ha : byteAt r.args 1 = a.val) :
    ownReadScore r s = done s (s.goalData g a) := by
  rw [ownReadScore, if_neg (by omega), ofIndex_of g hg, ofIndex_of a ha]

theorem ownReadScore_bad
    (h : (8 ≤ byteAt r.args 0 ∧ byteAt r.args 0 ≠ 255) ∨ (byteAt r.args 0 < 8 ∧ 4 ≤ byteAt r.args 1)) :
    ownReadScore r s = refuse .badArgument s := by
  rcases h with ⟨slot, all⟩ | ⟨slot, alliance⟩
  · rw [ownReadScore, if_neg all, ofIndex_bad slot]
  · rw [ownReadScore, if_neg (by omega), ofIndex_of ⟨_, slot⟩ rfl, ofIndex_bad alliance]

theorem exec_readStation (h : r.args.length ≤ 46) (n : 1 ≤ r.args.length) :
    exec (.readStation r) s = .next (reply 0x15 r (ownReadStation r (mgmtArrives s))) := takeRequest_taken h n

theorem ownReadStation_bad (h : byteAt r.args 0 < 1 ∨ 32 < byteAt r.args 0) :
    ownReadStation r s = refuse .badArgument s := by rw [ownReadStation, ofNum_bad h]

theorem ownReadStation_one {n : StationId} (h : byteAt r.args 0 = n.val + 1) :
    ownReadStation r s = done s (stationData (s.station n) s.stations.staleLimit) := by rw [ownReadStation, ofNum_of n h]

end

theorem stationData_eq (x : Station) (limit : Nat) : stationData x limit =
    [byte (match x.state with
        | .vacant => 0 | .enrolled => 1 | .linked => 2 | .stale => 3 | .disabled => 4 | .ejected => 5),
      byte (match x.kind with | none => 0 | some .robot => 1 | some .driver => 2),
      byte x.alliance.val, byte (x.team / 256), byte x.team,
      byte (match x.partner with | none => 0 | some m => m.val + 1),
      byte (match x.recordedPort with | none => 255 | some k => k.val + 1),
      byte (if x.held then 1 else 0), byte (x.quiet.getD 0 / 256), byte (x.quiet.getD 0),
      byte (limit / 256), byte limit] := by
  obtain ⟨state, kind, alliance, team, partner, port, quiet, held⟩ := x
  have kinds : kind.elim 0 StationKind.code = match kind with | none => 0 | some .robot => 1 | some .driver => 2 := by
    rcases kind with _ | _ | _ <;> rfl
  have partners : partner.elim 0 num = match partner with | none => 0 | some m => m.val + 1 := by cases partner <;> rfl
  have ports : port.elim 0xFF (fun k => (Port.rl k).code) = match port with | none => 255 | some k => k.val + 1 := by
    cases port <;> rfl
  have flag : held.toNat = if held then 1 else 0 := by cases held <;> rfl
  simp only [stationData, kinds, partners, ports, flag]
  rfl

/-- Settles O12: each read hands its argument to `readOf`, and the bytes are those of the tables. -/
theorem keepaliveAndReadsChangeNothing : Obligations.KeepaliveAndReadsChangeNothing := by
  refine ⟨fun r s len => ?_, fun r s n len => ⟨fun bad => ?_, fun k named => ?_⟩, ⟨fun t => ⟨rfl, setBytes_getLsbD t⟩,
    fun m q => ⟨role_partner, fun h ⟨_, next, partner⟩ => role_lead h next partner, role_ordinary, partners_count _⟩,
    tagsInUse_getLsbD, disputedCount_eq, rfl, rfl, rfl, rfl⟩⟩
  · intro m k one two map claim credit node score flag window windows rates scores four
    refine ⟨exec_keepalive len, fun given bad => ⟨?_, ?_, ?_, ?_⟩, fun given all => ⟨?_, ?_, ?_, ?_⟩,
      fun q given named => ⟨?_, ?_, ?_, ?_⟩, fun given all => ?_, fun g a given slot alliance => ?_, fun given bad => ?_⟩
    · exact (exec_readMap len given).trans (by rw [readOf_bad bad])
    · exact (exec_readClaim len given).trans (by rw [readOf_bad bad])
    · exact (exec_readCredit len given).trans (by rw [readOf_bad bad])
    · exact (exec_readNode len given).trans (by rw [readOf_bad bad])
    · exact (exec_readMap len given).trans (by rw [readOf_all all, mapData_eq] <;> rfl)
    · exact (exec_readClaim len given).trans (by rw [readOf_all all, holders_eq] <;> rfl)
    · exact (exec_readCredit len given).trans (by rw [readOf_all all, balances_eq] <;> rfl)
    · exact (exec_readNode len given).trans (by rw [readOf_all all, chainData_eq] <;> rfl)
    · exact (exec_readMap len given).trans (by
        rw [readOf_one named, mapData_eq, positionData_eq, ← List.append_assoc, ← List.append_assoc] <;> rfl)
    · exact (exec_readClaim len given).trans (by rw [readOf_one named, claimData_eq] <;> rfl)
    · exact (exec_readCredit len given).trans (by rw [readOf_one named] <;> rfl)
    · exact (exec_readNode len given).trans (by rw [readOf_one named, nodeData_eq] <;> rfl)
    · exact (exec_readScore len given).trans (by rw [ownReadScore_all all, summaryData_eq] <;> rfl)
    · exact (exec_readScore len given).trans (by rw [ownReadScore_one slot alliance, goalData_eq] <;> rfl)
    · exact (exec_readScore len given).trans (by rw [ownReadScore_bad bad])
  · exact (exec_readStation len n).trans (by rw [ownReadStation_bad bad])
  · exact (exec_readStation len n).trans (by rw [ownReadStation_one named, stationData_eq] <;> rfl)

end Sys2Proof.Machine
end

section
/-! SUPPORT. ENROL: its checks in order, and the record that it writes. -/

-- One theorem after the other: each elaboration task that runs beside another takes a stack from the check's memory limit.
set_option Elab.async false

namespace Sys2Proof.Machine

section
variable {r : Request} {s : State} {n : StationId} {a : Alliance} {kind : StationKind} {partner : Option StationId}

theorem exec_enrol (h : r.args.length ≤ 46) (given : 6 ≤ r.args.length) :
    exec (.enrol r) s = .next (reply 0x10 r (ownEnrol r (mgmtArrives s))) := takeRequest_taken h given

theorem StationKind.ofCode_of {k : Nat} (low : 1 ≤ k) (high : k ≤ 2) :
    StationKind.ofCode k = some (if k = 1 then .robot else .driver) := by
  obtain rfl | rfl : k = 1 ∨ k = 2 := by omega
  · rfl
  · rfl

theorem StationKind.ofCode_bad {k : Nat} (h : k < 1 ∨ 2 < k) : StationKind.ofCode k = none := by
  match k, h with
  | 0, _ => rfl
  | k + 3, _ => rfl

theorem partnerOf_bad {k : Nat} (h : 32 < k) : partnerOf k = none := by
  rw [partnerOf, if_neg (by omega), ofNum_bad (.inr h)]
  rfl

/-- The partner argument from 0 to 32 names a station, or none with 0. -/
theorem partnerOf_of {k : Nat} (h : k ≤ 32) : partnerOf k
    = some (if h : 1 ≤ k ∧ k ≤ 32 then some ⟨k - 1, by omega⟩ else none) := by
  rw [partnerOf, ofNum]
  split
  · next zero => rw [dif_neg (by omega)]
  · next pos => rw [dif_pos ⟨by omega, h⟩]; rfl

/-- A partner argument that is taken is at most 32, and names station n exactly when it is n's number. -/
theorem partnerOf_some {k : Nat} (h : partnerOf k = some partner) : k ≤ 32 ∧ (partner = some n ↔ k = n.val + 1) := by
  have low : k ≤ 32 := Classical.byContradiction fun high => by
    rw [partnerOf_bad (by omega)] at h
    exact nomatch h
  rw [partnerOf_of low, Option.some.injEq] at h
  refine ⟨low, ?_⟩
  rw [← h]
  split
  · rw [Option.some.injEq, Fin.ext_iff]
    simp only
    omega
  · simp only [reduceCtorEq, false_iff]
    omega

theorem teamMates_eq (s : State) (n : StationId) (a : Alliance) (kind : StationKind) :
    s.teamMates n a kind = ((List.finRange 32).filter fun j =>
      j ≠ n ∧ (s.station j).state ≠ .vacant ∧ (s.station j).alliance = a ∧ (s.station j).kind = some kind).length := by
  rw [State.teamMates, List.countP_eq_length_filter]
  refine congrArg List.length (List.filter_congr fun j _ => ?_)
  simp only [Bool.decide_and, Bool.and_assoc]

/-! ### The checks, in order (R24) -/

theorem ownEnrol_locked (h : s.control.phase ≠ .setup) : ownEnrol r s = refuse .locked s := if_pos h

theorem ownEnrol_bad (setup : s.control.phase = .setup)
    (h : byteAt r.args 0 < 1 ∨ 32 < byteAt r.args 0 ∨ byteAt r.args 1 < 1 ∨ 2 < byteAt r.args 1 ∨ 3 < byteAt r.args 2
      ∨ wordAt r.args 3 < 1 ∨ 9999 < wordAt r.args 3 ∨ 32 < byteAt r.args 5 ∨ byteAt r.args 5 = byteAt r.args 0) :
    ownEnrol r s = refuse .badArgument s := by
  rw [ownEnrol, if_neg (not_not.mpr setup)]
  split
  · next n kind a partner hn hk ha hp =>
    have number := ofNum_val hn
    have alliance := ofIndex_val ha
    obtain ⟨low, named⟩ := partnerOf_some (n := n) hp
    have kinds : ¬(byteAt r.args 1 < 1 ∨ 2 < byteAt r.args 1) := fun bad => by
      rw [StationKind.ofCode_bad bad] at hk
      exact nomatch hk
    rw [if_pos]
    rw [named]
    omega
  · rfl

/-- With good arguments the state of the record decides, and then the room in the alliance. -/
theorem ownEnrol_good (setup : s.control.phase = .setup) (hn : byteAt r.args 0 = n.val + 1)
    (hk : StationKind.ofCode (byteAt r.args 1) = some kind) (ha : byteAt r.args 2 = a.val) (low : 1 ≤ wordAt r.args 3)
    (high : wordAt r.args 3 ≤ 9999) (hp : partnerOf (byteAt r.args 5) = some partner) (other : byteAt r.args 5 ≠ n.val + 1) :
    ownEnrol r s = if (s.station n).state = .vacant ∨ (s.station n).state = .enrolled then
        if 4 ≤ s.teamMates n a kind then refuse .allianceFull s
        else done (enrol n kind a (wordAt r.args 3) partner s)
      else refuse .state s := by
  have own : ¬(wordAt r.args 3 < 1 ∨ 9999 < wordAt r.args 3 ∨ partner = some n) := by
    rw [(partnerOf_some hp).2]
    omega
  simp only [ownEnrol, if_neg (not_not.mpr setup), ofNum_of n hn, hk, ofIndex_of a ha, hp, if_neg own]
  cases (s.station n).state <;> simp

/-- What ENROL writes (R24 step 5). -/
theorem enrol_of_enrolled (h : (s.station n).state = .enrolled) (team : Nat) : enrol n kind a team partner s
    = s.setStation n { s.station n with state := .enrolled, kind := some kind, alliance := a, team, partner } := by
  simp [enrol, h]

theorem enrol_of_vacant (h : (s.station n).state = .vacant) (team : Nat) : enrol n kind a team partner s
    = evaluatePartners n (stationChange n .vacant .enrolled
        (s.setStation n { s.station n with state := .enrolled, kind := some kind, alliance := a, team, partner })) := by
  simp [enrol, h]

end

/-- Settles O13: the checks are R24's, and with good arguments the record's state and the room decide. -/
theorem enrolWritesTheRecord : Obligations.EnrolWritesTheRecord := by
  intro r s given len m kind team partner answer
  have answered : ∀ {o}, ownEnrol r m = o → answer o := fun h => h ▸ exec_enrol len given
  refine ⟨fun h => answered (ownEnrol_locked h), fun setup bad => answered (ownEnrol_bad setup bad), ?_⟩
  intro n a setup hn kLow kHigh ha tLow tHigh pHigh other k others written
  have good := ownEnrol_good (s := m) setup hn (StationKind.ofCode_of kLow kHigh) ha tLow tHigh (partnerOf_of pHigh) other
  have room : m.teamMates n a k = others.length := teamMates_eq m n a k
  refine ⟨fun known fresh => ?_, fun open' full => ?_, fun enrolled free => ?_, fun vacant free => ?_⟩
  · exact answered (good.trans (if_neg (not_or.mpr ⟨known, fresh⟩)))
  · have filled : 4 ≤ m.teamMates n a k := room ▸ full
    exact answered (good.trans ((if_pos open').trans (if_pos filled)))
  · have space : ¬4 ≤ m.teamMates n a k := room ▸ Nat.not_le.mpr free
    exact answered (good.trans ((if_pos (.inr enrolled)).trans ((if_neg space).trans
      (congrArg (fun t => done t) (enrol_of_enrolled (s := m) enrolled team)))))
  · have space : ¬4 ≤ m.teamMates n a k := room ▸ Nat.not_le.mpr free
    exact answered (good.trans ((if_pos (.inl vacant)).trans ((if_neg space).trans
      (congrArg (fun t => done t) (enrol_of_vacant (s := m) vacant team)))))

end Sys2Proof.Machine
end

section
/-! SUPPORT. What UNENROL, DISABLE, ENABLE and EJECT do for each state of the record that they name. -/

-- One theorem after the other: each elaboration task that runs beside another takes a stack from the check's memory limit.
set_option Elab.async false

namespace Sys2Proof.Machine

section
variable {r : Request} {s : State} {n : StationId}

theorem exec_unenrol (h : r.args.length ≤ 46) (given : 1 ≤ r.args.length) :
    exec (.unenrol r) s = .next (reply 0x11 r (ownUnenrol r (mgmtArrives s))) := takeRequest_taken h given

theorem exec_disable (h : r.args.length ≤ 46) (given : 1 ≤ r.args.length) :
    exec (.disable r) s = .next (reply 0x12 r (ownDisable r (mgmtArrives s))) := takeRequest_taken h given

theorem exec_enable (h : r.args.length ≤ 46) (given : 1 ≤ r.args.length) :
    exec (.enable r) s = .next (reply 0x13 r (ownEnable r (mgmtArrives s))) := takeRequest_taken h given

theorem exec_eject (h : r.args.length ≤ 46) (given : 1 ≤ r.args.length) :
    exec (.eject r) s = .next (reply 0x14 r (ownEject r (mgmtArrives s))) := takeRequest_taken h given

theorem ownUnenrol_locked (h : s.control.phase.isBetween = false) : ownUnenrol r s = refuse .locked s := by
  rw [ownUnenrol, h]; rfl

theorem ownUnenrol_bad (h : s.control.phase.isBetween = true) (bad : byteAt r.args 0 < 1 ∨ 32 < byteAt r.args 0) :
    ownUnenrol r s = refuse .badArgument s := by
  rw [ownUnenrol, h, ofNum_bad bad]; rfl

theorem ownUnenrol_vacant (h : s.control.phase.isBetween = true) (named : byteAt r.args 0 = n.val + 1)
    (vacant : (s.station n).state = .vacant) : ownUnenrol r s = refuse .state s := by
  simp [ownUnenrol, h, ofNum_of n named, vacant]

theorem ownUnenrol_named (h : s.control.phase.isBetween = true) (named : byteAt r.args 0 = n.val + 1)
    (known : (s.station n).state ≠ .vacant) : ownUnenrol r s = done (changeStation n .vacant none s) := by
  simp [ownUnenrol, h, ofNum_of n named, known]

theorem ownDisable_bad (bad : byteAt r.args 0 < 1 ∨ 32 < byteAt r.args 0) : ownDisable r s = refuse .badArgument s := by
  rw [ownDisable, ofNum_bad bad]

/-- DISABLE goes through from ENROLLED, LINKED and STALE (R26). -/
theorem ownDisable_named (named : byteAt r.args 0 = n.val + 1)
    (h : (s.station n).state = .enrolled ∨ (s.station n).state = .linked ∨ (s.station n).state = .stale) :
    ownDisable r s = done (changeStation n { s.station n with state := .disabled } (some .disabled) s) := by
  rw [ownDisable, ofNum_of n named]
  rcases h with h | h | h <;> simp only [h, disableStation]

theorem ownDisable_state (named : byteAt r.args 0 = n.val + 1)
    (h : (s.station n).state = .vacant ∨ (s.station n).state = .disabled ∨ (s.station n).state = .ejected) :
    ownDisable r s = refuse .state s := by
  rw [ownDisable, ofNum_of n named]
  rcases h with h | h | h <;> simp only [h]

theorem ownEnable_bad (bad : byteAt r.args 0 < 1 ∨ 32 < byteAt r.args 0) : ownEnable r s = refuse .badArgument s := by
  rw [ownEnable, ofNum_bad bad]

theorem ownEnable_named (named : byteAt r.args 0 = n.val + 1) (h : (s.station n).state = .disabled) :
    ownEnable r s = done (changeStation n { s.station n with state := .stale } (some .enabled) s) := by
  simp [ownEnable, ofNum_of n named, h]

theorem ownEnable_state (named : byteAt r.args 0 = n.val + 1) (h : (s.station n).state ≠ .disabled) :
    ownEnable r s = refuse .state s := by
  simp [ownEnable, ofNum_of n named, h]

theorem ownEject_locked (h : s.control.phase = .setup) : ownEject r s = refuse .locked s := if_pos h

theorem ownEject_bad (h : s.control.phase ≠ .setup) (bad : byteAt r.args 0 < 1 ∨ 32 < byteAt r.args 0) :
    ownEject r s = refuse .badArgument s := by
  rw [ownEject, if_neg h, ofNum_bad bad]

theorem ownEject_state (phase : s.control.phase ≠ .setup) (named : byteAt r.args 0 = n.val + 1)
    (h : (s.station n).state = .vacant ∨ (s.station n).state = .ejected) : ownEject r s = refuse .state s := by
  rw [ownEject, if_neg phase, ofNum_of n named]
  rcases h with h | h <;> simp only [h]

/-- EJECT goes through from every other state (R29). -/
theorem ownEject_named (phase : s.control.phase ≠ .setup) (named : byteAt r.args 0 = n.val + 1)
    (known : (s.station n).state ≠ .vacant) (present : (s.station n).state ≠ .ejected) :
    ownEject r s = done (changeStation n { s.station n with state := .ejected } (some .ejected) s) := by
  rw [ownEject, if_neg phase, ofNum_of n named]
  cases h : (s.station n).state with
  | vacant => exact absurd h known
  | ejected => exact absurd h present
  | enrolled | linked | stale | disabled => simp only [h]

end

/-- Settles O14: each request is taken, and its owner is unfolded state by state. -/
theorem requestsThatChangeAStation : Obligations.RequestsThatChangeAStation := by
  intro r s given len m b unenrol disable enable eject bad
  have unenrolled : ∀ {o}, ownUnenrol r m = o → unenrol o := fun h => h ▸ exec_unenrol len given
  have disabled : ∀ {o}, ownDisable r m = o → disable o := fun h => h ▸ exec_disable len given
  have enabled : ∀ {o}, ownEnable r m = o → enable o := fun h => h ▸ exec_enable len given
  have ejected : ∀ {o}, ownEject r m = o → eject o := fun h => h ▸ exec_eject len given
  refine ⟨fun h => unenrolled (ownUnenrol_locked h), fun h out => unenrolled (ownUnenrol_bad h out),
    fun out => ⟨disabled (ownDisable_bad out), enabled (ownEnable_bad out)⟩, fun h => ejected (ownEject_locked h),
    fun h out => ejected (ownEject_bad h out), fun n named => ?_⟩
  refine ⟨fun between => ⟨?_, ?_⟩, ?_, ?_, ?_, ?_, ?_⟩
  · exact fun h => unenrolled (ownUnenrol_vacant between named h)
  · exact fun h => unenrolled (ownUnenrol_named between named h)
  · exact fun h => disabled (ownDisable_named named h)
  · exact fun h => disabled (ownDisable_state named h)
  · exact fun h => enabled (ownEnable_named named h)
  · exact fun h => enabled (ownEnable_state named h)
  · exact fun phase => ⟨fun h => ejected (ownEject_state phase named h),
      fun known present => ejected (ownEject_named phase named known present)⟩

end Sys2Proof.Machine
end

section
/-! SUPPORT. The expiry of a station's quiet timer. -/

-- One theorem after the other: each elaboration task that runs beside another takes a stack from the check's memory limit.
set_option Elab.async false

namespace Sys2Proof.Machine

theorem exec_quietExpiry (n : StationId) (s : State) : exec (.quietExpiry n) s = execQuietExpiry n s := rfl

theorem quietExpired_eq (n : StationId) (s : State) : quietExpired n s =
    if (s.station n).state = .linked then changeStation n { s.station n with state := .stale, quiet := none } none s
    else s.setStation n { s.station n with quiet := none } := by
  simp only [quietExpired, Station.isLinked, decide_eq_true_eq]

/-- Settles O16: the time that is left passes, which counts no field of the record but the timer, and the state decides. -/
theorem quietExpiryMakesALinkedStationStale : Obligations.QuietExpiryMakesALinkedStationStale := by
  intro n s
  rw [exec_quietExpiry, execQuietExpiry]
  refine ⟨fun left running => ?_, fun stopped => ?_⟩
  · intro u
    rw [running]
    simp only [quietExpired_eq, elapse_station, u]
  · rw [stopped]

end Sys2Proof.Machine
end

section
/-! SUPPORT. The checks of STAGE as statements about the records, and the requests that move the phase. -/

-- One theorem after the other: each elaboration task that runs beside another takes a stack from the check's memory limit.
set_option Elab.async false

namespace Sys2Proof.Machine

section
variable {r : Request} {s : State}

/-! ### The checks of STAGE -/

/-- The pairing condition of one record (R34). -/
theorem pairingHolds_iff {n : StationId} : s.pairingHolds n = true ↔
    ∀ k, (s.station n).state ≠ .vacant → (s.station n).partner = some k →
      (s.station k).state ≠ .vacant ∧ (s.station k).kind ≠ (s.station n).kind
        ∧ (s.station k).alliance = (s.station n).alliance ∧ (s.station k).partner = some n := by
  simp only [State.pairingHolds]
  split
  · next vacant => simp [vacant]
  · next alone _ => simp [alone]
  · next m partner known =>
    simp only [Bool.and_eq_true, decide_eq_true_eq, and_assoc]
    refine ⟨fun h k _ hk => ?_, fun h => h m known partner⟩
    obtain rfl := Option.some.inj (partner.symm.trans hk)
    exact h

theorem pairingOk_iff : s.pairingOk = true ↔
    ∀ n k, (s.station n).state ≠ .vacant → (s.station n).partner = some k →
      (s.station k).state ≠ .vacant ∧ (s.station k).kind ≠ (s.station n).kind
        ∧ (s.station k).alliance = (s.station n).alliance ∧ (s.station k).partner = some n := by
  simp only [State.pairingOk, List.all_eq_true, List.mem_finRange, true_implies, pairingHolds_iff]

/-- Position 1 is its own lead, where the check is empty (R71). -/
theorem checkPairs_iff {m : ArenaMap} : m.checkPairs = true ↔
    ∀ q lead : Position, q.val = lead.val + 1 → m.partners.get q = true →
      ∀ a, m.windowClass a q = m.windowClass a lead := by
  simp only [ArenaMap.checkPairs, List.all_eq_true, List.mem_finRange, true_implies, Bool.or_eq_true, Bool.not_eq_true',
    decide_eq_true_eq, ArenaMap.isPartner]
  constructor
  · intro h q lead next partner
    have is : leadOf q = lead := Fin.ext (by simp only [leadOf]; omega)
    exact is ▸ (h q).resolve_left (by simp [partner])
  · intro h q
    cases partner : m.partners.get q with
    | false => exact .inl rfl
    | true =>
      refine .inr fun a => ?_
      by_cases first : q.val = 0
      · have own : leadOf q = q := Fin.ext (by simp only [leadOf]; omega)
        rw [own]
      · exact h q (leadOf q) (by simp only [leadOf]; omega) partner a

theorem goalsOk_iff : s.goalsOk = true ↔ ∀ g q, (s.goal g).position = some q → (s.node q).kind = some .goal := by
  simp only [State.goalsOk, List.all_eq_true, Table.mem_items, forall_exists_index, forall_apply_eq_imp_iff,
    Option.all_eq_true, decide_eq_true_eq]
  rfl

/-! ### The requests -/

theorem exec_stage (h : r.args.length ≤ 46) : exec (.stage r) s = .next (reply 0x61 r (ownStage (mgmtArrives s))) :=
  takeRequest_taken (code := 0x61) h (Nat.zero_le _)

theorem exec_unstage (h : r.args.length ≤ 46) : exec (.unstage r) s = .next (reply 0x62 r (ownUnstage (mgmtArrives s))) :=
  takeRequest_taken (code := 0x62) h (Nat.zero_le _)

theorem exec_start (h : r.args.length ≤ 46) : exec (.start r) s = .next (reply 0x63 r (ownStart (mgmtArrives s))) :=
  takeRequest_taken (code := 0x63) h (Nat.zero_le _)

theorem exec_pause (h : r.args.length ≤ 46) : exec (.pause r) s = .next (reply 0x64 r (ownPause (mgmtArrives s))) :=
  takeRequest_taken (code := 0x64) h (Nat.zero_le _)

theorem exec_resume (h : r.args.length ≤ 46) : exec (.resume r) s = .next (reply 0x65 r (ownResume (mgmtArrives s))) :=
  takeRequest_taken (code := 0x65) h (Nat.zero_le _)

theorem exec_abort (h : r.args.length ≤ 46) : exec (.abort r) s = .next (reply 0x66 r (ownAbort (mgmtArrives s))) :=
  takeRequest_taken (code := 0x66) h (Nat.zero_le _)

/-- In SETUP with no census running, the three checks of STAGE follow in order (R161). -/
theorem ownStage_checks (setup : s.control.phase = .setup) (census : s.chain.census = none) :
    ownStage s = if !s.pairingOk then refuse .pairing s
      else if !s.map.checkPairs then refuse .mapMismatch s
      else if !s.goalsOk then refuse .notGoal s
      else done (enterPhase .staged 0 s) := by
  rw [ownStage, if_neg (not_not.mpr setup), if_neg (not_not.mpr census)]

theorem ownStage_locked (h : s.control.phase ≠ .setup) : ownStage s = refuse .locked s := if_pos h

theorem ownStage_busy (setup : s.control.phase = .setup) (census : s.chain.census ≠ none) : ownStage s = refuse .busy s := by
  rw [ownStage, if_neg (not_not.mpr setup), if_pos census]

theorem ownUnstage_staged (h : s.control.phase = .staged) : ownUnstage s = done (enterPhase .setup 0 s) := if_pos h

theorem ownUnstage_locked (h : s.control.phase ≠ .staged) : ownUnstage s = refuse .locked s := if_neg h

theorem ownStart_staged (h : s.control.phase = .staged) : ownStart s = done (startMatch s) := if_pos h

theorem ownStart_locked (h : s.control.phase ≠ .staged) : ownStart s = refuse .locked s := if_neg h

theorem ownPause_running {p : Running} (h : s.control.phase = .running p) :
    ownPause s = done (enterPhase (.paused p .request) s.control.timer s) := by
  simp only [ownPause, h, pauseMatch]

theorem ownPause_locked (h : ∀ p, s.control.phase ≠ .running p) : ownPause s = refuse .locked s := by
  rw [ownPause]
  split
  · next p running => exact absurd running (h p)
  · rfl

theorem ownResume_paused {p : Running} {c : PauseCause} (h : s.control.phase = .paused p c) :
    ownResume s = done (passThrough (enterPhase (.running p) s.control.timer s)) := by
  simp only [ownResume, h]

theorem ownResume_locked (h : ∀ p c, s.control.phase ≠ .paused p c) : ownResume s = refuse .locked s := by
  rw [ownResume]
  split
  · next p c paused => exact absurd paused (h p c)
  · rfl

theorem ownAbort_taken {p : Running} (h : s.control.phase = .running p ∨ ∃ c, s.control.phase = .paused p c) :
    ownAbort s = done (enterPhase (.ended p) 0 s) := by
  rcases h with h | ⟨c, h⟩ <;> simp only [ownAbort, h]

theorem ownAbort_locked (running : ∀ p, s.control.phase ≠ .running p) (paused : ∀ p c, s.control.phase ≠ .paused p c) :
    ownAbort s = refuse .locked s := by
  rw [ownAbort]
  split
  · next p h => exact absurd h (running p)
  · next p c h => exact absurd h (paused p c)
  · rfl

end

/-- Settles O46: each request is taken, and its owner decides by the phase and, for STAGE, by the checks in order. -/
theorem phaseRequestsMoveThePhase : Obligations.PhaseRequestsMoveThePhase := by
  intro r s len m phase stage unstage start pause resume abort paired mapped placed
  have staged : ∀ {o}, ownStage m = o → stage o := fun h => h ▸ exec_stage len
  have unstaged : ∀ {o}, ownUnstage m = o → unstage o := fun h => h ▸ exec_unstage len
  have started : ∀ {o}, ownStart m = o → start o := fun h => h ▸ exec_start len
  have paused : ∀ {o}, ownPause m = o → pause o := fun h => h ▸ exec_pause len
  have resumed : ∀ {o}, ownResume m = o → resume o := fun h => h ▸ exec_resume len
  have aborted : ∀ {o}, ownAbort m = o → abort o := fun h => h ▸ exec_abort len
  have pairs : m.pairingOk = true ↔ paired := pairingOk_iff
  have maps : m.map.checkPairs = true ↔ mapped := checkPairs_iff
  have places : m.goalsOk = true ↔ placed := goalsOk_iff
  refine ⟨fun h => staged (ownStage_locked h),
    fun setup => ⟨fun census => staged (ownStage_busy setup census), ?_, ?_, ?_, ?_⟩,
    fun h => unstaged (ownUnstage_staged h), fun h => unstaged (ownUnstage_locked h),
    fun h => started (ownStart_staged h), fun h => started (ownStart_locked h),
    fun p h => paused (ownPause_running h), fun h => paused (ownPause_locked h),
    fun p c h => resumed (ownResume_paused h), fun h => resumed (ownResume_locked h),
    fun p h => aborted (ownAbort_taken h), fun h k => aborted (ownAbort_locked h k)⟩
  · intro census unpaired
    refine staged ((ownStage_checks (s := m) setup census).trans ?_)
    simp [pairs, unpaired]
  · intro census hp unmapped
    refine staged ((ownStage_checks (s := m) setup census).trans ?_)
    simp [pairs.mpr hp, maps, unmapped]
  · intro census hp hm unplaced
    refine staged ((ownStage_checks (s := m) setup census).trans ?_)
    simp [pairs.mpr hp, maps.mpr hm, places, unplaced]
  · intro census hp hm hg
    refine staged ((ownStage_checks (s := m) setup census).trans ?_)
    simp [pairs.mpr hp, maps.mpr hm, places.mpr hg]

end Sys2Proof.Machine
end

section
/-! SUPPORT. The verdicts that stop a frame: the frame at the rules, the answer of DENY, and the bytes of a COPY notice. -/

-- One theorem after the other: each elaboration task that runs beside another takes a stack from the check's memory limit.
set_option Elab.async false

namespace Sys2Proof.Machine

variable {k : RadioPort} {n : StationId} {s : State}

theorem countHit_eq (i : RuleIx) (s : State) :
    countHit i s = s.setRule i { s.rule i with hits := min 65535 ((s.rule i).hits + 1) } := rfl

/-- What DENY answers to a frame of each kind (R45). -/
def denial (kind : Kind) (f : FrameBody) : Answer :=
  { code := .rule, kind, sequence := f.sequence, position := if kind = .join then 0 else f.payload.headD 0, value := 0
    extra := 0 }

/-- DENY answers a JOIN on its ingress port and an ELEMENT, CLAIM or RELEASE on the recorded port (R45). -/
theorem denyFrame_eq (k : RadioPort) (n : StationId) (kind : Kind) (f : FrameBody) (u : State) :
    denyFrame k n { f with kind } u =
      if kind = .join then answerOn k n (denial kind f) u
      else if kind = .element ∨ kind = .claim ∨ kind = .release then answer n (denial kind f) u
      else u := by
  cases kind <;> rfl

/-- The verdict DISABLE spares a station that is DISABLED or EJECTED already (R27). -/
theorem disableByVerdict_eq (known : (s.station n).state ≠ .vacant) : disableByVerdict n s =
    if (s.station n).state = .disabled ∨ (s.station n).state = .ejected then s
    else changeStation n { s.station n with state := .disabled } (some .disabled) s := by
  simp only [disableByVerdict, disableStation]
  cases state : (s.station n).state with
  | vacant => exact absurd state known
  | enrolled | linked | stale | disabled | ejected => simp

/-- A frame of a station kind that comes to the rules is judged where its station has been heard. -/
theorem exec_of_comesToRules {c : Port → FrameBody → Instr} {kind : Kind} {f : FrameBody}
    (member : (c, kind) ∈ [(Instr.join, Kind.join), (Instr.beacon, .beacon), (Instr.pilot, .pilot), (Instr.telem, .telem),
      (Instr.element, .element), (Instr.claim, .claim), (Instr.release, .release)])
    (h : ComesToRules k n { f with kind } s) : exec (c (.rl k) f) s = .next (applyRules k n { f with kind } (s.heard k n)) := by
  rw [exec_stationKind member h.accepted, ← arrival_of_comesToRules h]
  simp only [arrival, h.accepted, h.gate, Bool.and_self, if_true]

theorem applyRules_matched {i : RuleIx} {f : Frame} (first : s.searchRules k n f = some i) :
    applyRules k n f (s.heard k n) = applyVerdict (s.rule i) k n f (countHit i (s.heard k n)) := by
  simp only [applyRules, heard_searchRules, first, State.rule, heard_classifier]

theorem applyRules_dropped {f : Frame} (none_ : s.searchRules k n f = none) (drop : s.classifier.defaultFor f.kind = .drop) :
    applyRules k n f (s.heard k n) = s.heard k n := by
  simp only [applyRules, heard_searchRules, none_, heard_classifier, drop]

theorem applyVerdict_drop {u : Rule} (h : u.verdict = .drop) (f : Frame) : applyVerdict u k n f s = s := by
  simp only [applyVerdict, h]

theorem applyVerdict_deny {u : Rule} (h : u.verdict = .deny) (f : Frame) : applyVerdict u k n f s = denyFrame k n f s := by
  simp only [applyVerdict, h]

theorem applyVerdict_disable {u : Rule} (h : u.verdict = .disable) (f : Frame) :
    applyVerdict u k n f s = disableByVerdict n s := by
  simp only [applyVerdict, h]

theorem Frame.content_eq (f : Frame) : f.content =
    [byte (16 * f.kind.code + 1), byte f.source.toNat, byte f.destination.toNat, f.sequence, byte f.payload.length, f.label]
      ++ f.payload := by
  simp only [Frame.content, kindByte, byte, BitVec.ofNat_toNat, Nat.mul_comm, BitVec.zeroExtend]

theorem Frame.length_wire (f : Frame) : f.wire.length = f.payload.length + 8 := by
  simp [Frame.wire, Frame.content, bytes16]

/-- The COPY notice carries the wire bytes of the frame as it arrived, CRC included, up to 40 of them (R11, R43). -/
theorem copyFrame_eq (label : Byte) (k : RadioPort) (f : Frame) :
    let arrived := [byte (16 * f.kind.code + 1), byte f.source.toNat, byte f.destination.toNat, f.sequence,
      byte f.payload.length, f.label] ++ f.payload
    copyFrame label k f = { source := 0, destination := 0, sequence := 0, label, kind := .report
                            payload := [0x87, 0, 0, byte (k.val + 1), byte (min 40 (f.payload.length + 8))]
                              ++ (arrived ++ bytes16 (crc arrived)).take 40 } := by
  intro arrived
  have wire : f.wire = arrived ++ bytes16 (crc arrived) := by rw [Frame.wire, Frame.content_eq]
  have shown : (f.wire.take Config.copyBytes).length = min 40 (f.payload.length + 8) := by
    rw [List.length_take, Frame.length_wire]
    rfl
  rw [copyFrame, shown, wire]
  rfl

/-- Settles O25: the frame is judged where its station has been heard, the first matching rule counts it, and its verdict is one
of the three that stop it. -/
theorem ruleVerdictsThatStopAFrame : Obligations.RuleVerdictsThatStopAFrame := by
  refine ⟨fun c kind member k n f s h => ?_, countHit_eq, copyFrame_eq⟩
  intro heard said
  refine ⟨fun i first => ?_, fun none_ drop => ?_⟩
  · intro u
    have counted : countHit i (s.heard k n) = u := by
      rw [countHit_eq, State.rule, heard_classifier]
      rfl
    have judged := exec_of_comesToRules member h
    rw [applyRules_matched first, counted] at judged
    refine ⟨fun drop => ?_, fun deny => ?_, fun disable => ?_⟩
    · rw [judged, applyVerdict_drop drop]
    · rw [judged, applyVerdict_deny deny, denyFrame_eq]
      rfl
    · have record : u.station n = heard.station n := rfl
      have state : (u.station n).state = (s.station n).state := by rw [record, heard_station]
      rw [judged, applyVerdict_disable disable, disableByVerdict_eq (by rw [state]; exact h.enrolled), state, record]
  · rw [exec_of_comesToRules member h, applyRules_dropped none_ drop]

end Sys2Proof.Machine
end

section
/-! SUPPORT. JOIN and BEACON at their handlers: what the match of team and kind means, and the link. -/

-- One theorem after the other: each elaboration task that runs beside another takes a stack from the check's memory limit.
set_option Elab.async false

namespace Sys2Proof.Machine

variable {k : RadioPort} {n : StationId}

/-- A link is told by STATION_CHANGE and the robots that name the station, and the robot itself by HOLD (R21, R23, R32). -/
theorem afterLink_eq (n : StationId) (old : StationState) (v : State) : afterLink n old v =
    let told := evaluatePartners n (offerReport .normal
      { source := 0, destination := 0, sequence := 0, label := 0, kind := .report
        payload := [0x82, 0, 0, byte (n.val + 1), byte old.code, 2] } v)
    if (told.station n).held ∧ (told.station n).kind = some .robot then arenaTo .hold n told else told := by
  simp only [afterLink, Bool.and_eq_true, Station.isRobot, decide_eq_true_eq]
  rfl

/-- The claimed team is a team's number and the record's, and the claimed kind is the record's (R21). -/
theorem joinMatches_iff {x : Station} {payload : List Byte} : joinMatches x payload = true ↔
    1 ≤ wordAt payload 0 ∧ wordAt payload 0 ≤ 9999 ∧ wordAt payload 0 = x.team
      ∧ (byteAt payload 2 = 1 ∧ x.kind = some .robot ∨ byteAt payload 2 = 2 ∧ x.kind = some .driver) := by
  simp only [joinMatches, Bool.and_eq_true, decide_eq_true_eq, and_assoc]
  refine and_congr_right fun _ => and_congr_right fun _ => and_congr_right fun _ => ?_
  generalize byteAt payload 2 = c
  match c with
  | 0 => simp [StationKind.ofCode]
  | 1 => simp [StationKind.ofCode]
  | 2 => simp [StationKind.ofCode]
  | c + 3 => simp [StationKind.ofCode]

theorem exec_join_of_comesToHandler {f : FrameBody} {s u : State} {steer : Option AreaId}
    (h : ComesToHandler k n { f with kind := .join } s steer u) : exec (.join (.rl k) f) s = .next (handleJoin k n f u) :=
  arrival_of_comesToHandler h

theorem exec_beacon_of_comesToHandler {f : FrameBody} {s u : State} {steer : Option AreaId}
    (h : ComesToHandler k n { f with kind := .beacon } s steer u) : exec (.beacon (.rl k) f) s = .next (handleBeacon k n u) :=
  arrival_of_comesToHandler h

/-- Settles O27: up to its handler a frame changes neither the state, the team nor the kind of a record, and no phase. -/
theorem joinAndBeaconLinkAStation : Obligations.JoinAndBeaconLinkAStation := by
  refine ⟨fun k n f s u steer h => ?_, fun k n f s u steer h => ?_⟩
  · intro x say team fits linked
    refine ⟨fun old v => afterLink_eq n old v, ?_⟩
    obtain ⟨_, _, _, _, control, _, _⟩ := h.keeps
    have state : (u.station n).state = x.state := by rw [h.station]
    have fit : joinMatches (u.station n) f.payload = true ↔ fits := by
      rw [joinMatches_iff, h.station]
    have said : ∀ code (t : State), t.control = s.control → answerJoin k n code f.sequence t = say code t :=
      fun code t same => by
        rw [answerJoin, joinAnswer, same]
    have link : answerJoin k n .joinOk f.sequence (linkRecord n k u) = say .joinOk linked := said _ _ control
    rw [exec_join_of_comesToHandler h, handleJoin]
    split
    · rfl
    · simp only [state, link, said _ u control, fit]
      cases x.state <;> rfl
  · intro linked
    have state : (u.station n).state = (s.station n).state := by rw [h.station]
    rw [exec_beacon_of_comesToHandler h, handleBeacon, state]
    cases (s.station n).state <;> rfl

end Sys2Proof.Machine
end

section
/-! SUPPORT. The steps that are due on an empty queue: the condition of each, and the search that finds one. -/

-- One theorem after the other: each elaboration task that runs beside another takes a stack from the check's memory limit.
set_option Elab.async false

namespace Sys2Proof.Machine

variable {s : State}

/-! ### The conditions -/

theorem isSome_nextArea_iff {c : Consumer} : (s.nextArea c).isSome = true ↔ ∃ l a, s.Filled c l a := by
  constructor
  · intro some_
    by_contra empty
    rw [nextArea_eq_none fun l a filled => empty ⟨l, a, filled⟩] at some_
    exact nomatch some_
  · rintro ⟨l, a, filled⟩
    rw [nextArea_eq, Option.isSome_or, Option.isSome_or]
    have here : (s.filledArea c l).isSome = true := by rw [filledArea_eq_some.mpr filled]; rfl
    cases l <;> simp [here]

theorem isSome_takeReady_iff {p : Port} : (s.takeReady p).isSome = true ↔
    (s.port p).transmitter = none ∧ (s.port p).line = .up ∧ ∃ l a, s.Filled (.port p) l a := by
  rw [State.takeReady]
  split
  · next ready => rw [isSome_nextArea_iff]; simp [ready]
  · next unready => simp only [Option.isSome_none, Bool.false_eq_true, false_iff, ← and_assoc]; exact fun h => unready h.1

theorem Table.isSome_find?_iff {α : Type} {n : Nat} {t : Table α n} {p : α → Bool} :
    (t.find? p).isSome = true ↔ ∃ i, p (t.get i) = true := by
  simp [Table.find?, List.find?_isSome]

theorem isSome_freeTag_iff : s.freeTag.isSome = true ↔ ∃ t, s.tag t = none := by
  simp only [State.freeTag, Table.isSome_find?_iff, Option.isNone_iff_eq_none]
  rfl

theorem isSome_pendingReady_iff : s.pendingReady.isSome = true ↔
    s.chain.slot ≠ none ∧ s.chain.census = none ∧ ∃ t, s.tag t = none := by
  rw [← isSome_freeTag_iff, State.pendingReady]
  cases s.freeTag <;> cases s.chain.slot <;> cases s.chain.census <;> simp

theorem isSome_dequeueReady_iff : s.dequeueReady.isSome = true ↔
    s.chain.halted = false ∧ s.chain.census = none ∧ s.chain.slot = none ∧ (∃ t, s.tag t = none)
      ∧ ∃ l a, s.Filled .chain l a := by
  rw [← isSome_freeTag_iff, ← isSome_nextArea_iff, State.dequeueReady]
  split
  · next ready => cases s.freeTag <;> cases s.nextArea .chain <;> simp [ready]
  · next unready =>
    simp only [Option.isSome_none, Bool.false_eq_true, false_iff]
    exact fun ⟨halted, census, slot, _⟩ => unready ⟨halted, census, slot⟩

/-- The condition under which each step of the part's own is due. -/
def State.Due (s : State) : Instr → Prop
  | .transmitterTake p => (s.port p).transmitter = none ∧ (s.port p).line = .up ∧ ∃ l a, s.Filled (.port p) l a
  | .pendingSend => s.chain.slot ≠ none ∧ s.chain.census = none ∧ ∃ t, s.tag t = none
  | .dequeue => s.chain.halted = false ∧ s.chain.census = none ∧ s.chain.slot = none ∧ (∃ t, s.tag t = none)
      ∧ ∃ l a, s.Filled .chain l a
  | .creditTick => s.control.phase.isRunning = true ∧ 10 ≤ s.control.accumulator
  | .holdExpiry q => s.control.phase.isRunning = true ∧ ∃ h, (s.claim q).hold = some h ∧ h.remaining = 0
  | .barExpiry q => s.control.phase.isRunning = true ∧ ∃ b, (s.claim q).bar = some b ∧ b.remaining = 0
  | .quietExpiry n => (s.station n).quiet = some 0
  | .silenceExpiry => s.control.silence = some 0
  | .replyTimeout t => ∃ r, s.tag t = some r ∧ r.timer = 0
  | .probeTimeout => ∃ c, s.chain.census = some c ∧ c.timer = 0
  | .settleExpiry g => s.tally.settle.get g = some 0
  | .finalSettleExpiry => s.tally.final = .running 0
  | .phaseExpiry => s.control.phase.isRunning = true ∧ s.control.timer = 0
  | _ => False

/-! ### The search -/

section
variable {c : Instr}

theorem due_of_dueSend (h : s.dueSend = some c) : s.Due c := by
  rw [State.dueSend] at h
  split at h
  · next p found =>
    obtain rfl := Option.some.inj h
    exact isSome_takeReady_iff.mp (List.find?_some (p := fun p => (s.takeReady p).isSome) found)
  · split at h
    · next ready =>
      obtain rfl := Option.some.inj h
      exact isSome_pendingReady_iff.mp ready
    · split at h
      · next ready =>
        obtain rfl := Option.some.inj h
        exact isSome_dequeueReady_iff.mp ready
      · exact nomatch h

/-- A timer that an entry may hold has run out. -/
theorem any_timer_iff {α : Type} {o : Option α} {time : α → Nat} :
    (o.any fun x => decide (time x = 0)) = true ↔ ∃ x, o = some x ∧ time x = 0 := by
  simp only [Option.any_eq_true, decide_eq_true_eq]

theorem ranOut_iff {t : Option Nat} : ranOut t = true ↔ t = some 0 := decide_eq_true_iff

theorem due_of_dueInMatch (h : s.dueInMatch = some c) : s.Due c := by
  rw [State.dueInMatch] at h
  split at h
  · next running =>
    split at h
    · next tick =>
      obtain rfl := Option.some.inj h
      exact ⟨running, tick⟩
    · split at h
      · next q found =>
        obtain rfl := Option.some.inj h
        exact ⟨running, any_timer_iff.mp (Table.find?_some found)⟩
      · obtain ⟨q, found, rfl⟩ := Option.map_eq_some_iff.mp h
        exact ⟨running, any_timer_iff.mp (Table.find?_some found)⟩
  · exact nomatch h

theorem due_of_dueInRealTime (h : s.dueInRealTime = some c) : s.Due c := by
  rw [State.dueInRealTime] at h
  split at h
  · next n found =>
    obtain rfl := Option.some.inj h
    exact ranOut_iff.mp (Table.find?_some found)
  · split at h
    · next out =>
      obtain rfl := Option.some.inj h
      exact ranOut_iff.mp out
    · split at h
      · next t found =>
        obtain rfl := Option.some.inj h
        exact any_timer_iff.mp (Table.find?_some found)
      · split at h
        · next out =>
          obtain rfl := Option.some.inj h
          exact any_timer_iff.mp out
        · split at h
          · next g found =>
            obtain rfl := Option.some.inj h
            exact ranOut_iff.mp (Table.find?_some found)
          · split at h
            · next out =>
              obtain rfl := Option.some.inj h
              exact out
            · exact nomatch h

theorem due_of_duePhase (h : s.duePhase = some c) : s.Due c := by
  rw [State.duePhase] at h
  split at h
  · next out =>
    obtain rfl := Option.some.inj h
    simpa [State.Due] using out
  · exact nomatch h

theorem due_of_due (h : s.due = some c) : s.Due c := by
  simp only [State.due, Option.or_eq_some_iff] at h
  rcases h with h | ⟨_, h | ⟨_, h | ⟨_, h⟩⟩⟩
  · exact due_of_dueSend h
  · exact due_of_dueInMatch h
  · exact due_of_dueInRealTime h
  · exact due_of_duePhase h

/-! ### Nothing is found -/

theorem not_due_of_dueSend_none (h : s.dueSend = none) :
    (∀ p, ¬s.Due (.transmitterTake p)) ∧ ¬s.Due .pendingSend ∧ ¬s.Due .dequeue := by
  rw [State.dueSend] at h
  split at h
  · exact nomatch h
  · next none_ =>
    split at h
    · exact nomatch h
    · next pending =>
      split at h
      · exact nomatch h
      · next dequeue =>
        refine ⟨fun p due => ?_, fun due => pending (isSome_pendingReady_iff.mpr due),
          fun due => dequeue (isSome_dequeueReady_iff.mpr due)⟩
        have listed : p ∈ [Port.ml, .rl 0, .rl 1, .rl 2, .rl 3] := by
          cases p with
          | ml => simp
          | rl k => fin_cases k <;> simp
        exact List.find?_eq_none.mp none_ p listed (isSome_takeReady_iff.mpr due)

theorem not_due_of_dueInMatch_none (h : s.dueInMatch = none) :
    ¬s.Due .creditTick ∧ (∀ q, ¬s.Due (.holdExpiry q)) ∧ ∀ q, ¬s.Due (.barExpiry q) := by
  rw [State.dueInMatch] at h
  split at h
  · split at h
    · exact nomatch h
    · next early =>
      split at h
      · exact nomatch h
      · next holds =>
        have bars := Option.map_eq_none_iff.mp h
        refine ⟨fun ⟨_, tick⟩ => early tick, fun q ⟨_, out⟩ => ?_, fun q ⟨_, out⟩ => ?_⟩
        · exact Bool.false_ne_true ((Table.find?_none holds q).symm.trans (any_timer_iff.mpr out))
        · exact Bool.false_ne_true ((Table.find?_none bars q).symm.trans (any_timer_iff.mpr out))
  · next still => exact ⟨fun ⟨running, _⟩ => still running, fun _ ⟨running, _⟩ => still running,
      fun _ ⟨running, _⟩ => still running⟩

theorem not_due_of_dueInRealTime_none (h : s.dueInRealTime = none) :
    (∀ n, ¬s.Due (.quietExpiry n)) ∧ ¬s.Due .silenceExpiry ∧ (∀ t, ¬s.Due (.replyTimeout t)) ∧ ¬s.Due .probeTimeout
      ∧ (∀ g, ¬s.Due (.settleExpiry g)) ∧ ¬s.Due .finalSettleExpiry := by
  simp only [State.dueInRealTime] at h
  split at h
  · exact nomatch h
  next quiets =>
  split at h
  · exact nomatch h
  next silence =>
  split at h
  · exact nomatch h
  next tags =>
  split at h
  · exact nomatch h
  next census =>
  split at h
  · exact nomatch h
  next settles =>
  split at h
  · exact nomatch h
  next final =>
  refine ⟨fun n out => ?_, fun out => silence (ranOut_iff.mpr out), fun t out => ?_,
    fun out => census (any_timer_iff.mpr out), fun g out => ?_, final⟩
  · exact Bool.false_ne_true ((Table.find?_none quiets n).symm.trans (ranOut_iff.mpr out))
  · exact Bool.false_ne_true ((Table.find?_none tags t).symm.trans (any_timer_iff.mpr out))
  · exact Bool.false_ne_true ((Table.find?_none settles g).symm.trans (ranOut_iff.mpr out))

theorem not_due_of_duePhase_none (h : s.duePhase = none) : ¬s.Due .phaseExpiry := by
  rw [State.duePhase] at h
  split at h
  · exact nomatch h
  · next early => exact fun ⟨running, out⟩ => early (by simp [running, out])

/-- When the search finds nothing, no step is due. -/
theorem not_due_of_due_none (h : s.due = none) (c : Instr) : ¬s.Due c := by
  simp only [State.due, Option.or_eq_none_iff] at h
  obtain ⟨sends, inMatch, inRealTime, phase⟩ := h
  obtain ⟨take, pending, dequeue⟩ := not_due_of_dueSend_none sends
  obtain ⟨tick, hold, bar⟩ := not_due_of_dueInMatch_none inMatch
  obtain ⟨quiet, silence, reply, probe, settle, final⟩ := not_due_of_dueInRealTime_none inRealTime
  cases c with
  | transmitterTake p => exact take p
  | pendingSend => exact pending
  | dequeue => exact dequeue
  | creditTick => exact tick
  | holdExpiry q => exact hold q
  | barExpiry q => exact bar q
  | quietExpiry n => exact quiet n
  | silenceExpiry => exact silence
  | replyTimeout t => exact reply t
  | probeTimeout => exact probe
  | settleExpiry g => exact settle g
  | finalSettleExpiry => exact final
  | phaseExpiry => exact not_due_of_duePhase_none phase
  | _ => exact id

end

/-- Settles O2: what the search finds is due, and when it finds nothing, nothing is. -/
theorem emptyQueueTakesAStepOfItsOwn : Obligations.EmptyQueueTakesAStepOfItsOwn := by
  intro s empty running free filled due
  have same : ∀ c, due c ↔ s.Due c := fun c => by cases c <;> exact Iff.rfl
  have own : step s = ownStep s := by rw [step, empty]
  refine ⟨fun c h => ⟨(same c).mpr (due_of_due h), ?_⟩, fun h => ⟨fun c => ?_, ?_⟩⟩
  · rw [own, ownStep, h]
  · rw [same]
    exact not_due_of_due_none h c
  · rw [own, ownStep, h]

end Sys2Proof.Machine
end

section
/-! SUPPORT. A change of a station's state: how it is told, and what a departure from LINKED leaves of the station in the claim
table, in the CHAIN areas and in the tag records. -/

-- One theorem after the other: each elaboration task that runs beside another takes a stack from the check's memory limit.
set_option Elab.async false

namespace Sys2Proof.Machine

/-! ### The entries of the claim table -/

section
variable {n : StationId} {q : Position} {s : State} {e : ClaimEntry}

/-- What a hand-over makes of the entry e of position q (R87, R88). -/
def State.handedOver (s : State) (q : Position) (e : ClaimEntry) : ClaimEntry :=
  match e.waiters.find? (s.eligible e) with
  | none => e
  | some w => { e with
      hold := some { holder := w.station, remaining := grantedHold w.requested (s.profile q).maxHold }
      waiters := e.waiters.eraseP (s.eligible e) }

theorem handOver_claim (q : Position) (s : State) : (handOver q s).claim q = s.handedOver q (s.claim q) :=
  handOver_claim_self q s

theorem handedOver_congr {t : State} (stations : t.stations = s.stations) (map : t.map = s.map) (q : Position)
    (e : ClaimEntry) : t.handedOver q e = s.handedOver q e := by
  have eligible : t.eligible = s.eligible := by
    funext e w
    simp only [State.eligible, State.station, stations]
    rfl
  simp only [State.handedOver, eligible, State.profile, map]

theorem eligible_iff {w : Waiter} : s.eligible e w = true ↔
    ∀ bar, e.bar = some bar → (s.station w.station).alliance ≠ bar.alliance := by
  simp only [State.eligible, Option.all_eq_true, decide_eq_true_eq]

theorem handedOver_bar (s : State) (q : Position) (e : ClaimEntry) : (s.handedOver q e).bar = e.bar := by
  rw [State.handedOver]
  split <;> rfl

/-- An entry that is handed over has a waiter of its list as its holder. -/
theorem handedOver_hold {h : Hold} (free : e.hold = none) (held : (s.handedOver q e).hold = some h) :
    ∃ w ∈ e.waiters, w.station = h.holder := by
  rw [State.handedOver] at held
  split at held
  · rw [free] at held
    exact nomatch held
  · next w found =>
    obtain rfl := Option.some.inj held
    exact ⟨w, List.mem_of_find?_eq_some found, rfl⟩

theorem mem_of_mem_handedOver_waiters {w : Waiter} (h : w ∈ (s.handedOver q e).waiters) : w ∈ e.waiters := by
  rw [State.handedOver] at h
  split at h
  · exact h
  · exact List.mem_of_mem_eraseP h

/-- With no eligible waiter the entry stays as it is (R87). -/
theorem handedOver_none (h : ∀ w ∈ e.waiters, s.eligible e w = false) : s.handedOver q e = e := by
  rw [State.handedOver, List.find?_eq_none.mpr fun w mem => by simp [h w mem]]

/-- The oldest eligible waiter becomes the holder, and leaves the list (R87, R88). -/
theorem handedOver_some {before after : List Waiter} {w : Waiter} (list : e.waiters = before ++ w :: after)
    (eligible : s.eligible e w = true) (barred : ∀ v ∈ before, s.eligible e v = false) :
    s.handedOver q e = { e with
      hold := some { holder := w.station, remaining := grantedHold w.requested (s.profile q).maxHold }
      waiters := before ++ after } := by
  have first : e.waiters.find? (s.eligible e) = some w := by
    rw [list, List.find?_append, List.find?_eq_none.mpr fun v mem => by simp [barred v mem], Option.none_or,
      List.find?_cons_of_pos eligible]
  have rest : e.waiters.eraseP (s.eligible e) = before ++ after := by
    rw [list, List.eraseP_append_right _ fun v mem => by simp [barred v mem], List.eraseP_cons_of_pos eligible]
  rw [State.handedOver, first, rest]

/-- What the departure of station n makes of the entry e of position q, once its waits are gone (R89). -/
def State.givenUp (s : State) (n : StationId) (q : Position) (e : ClaimEntry) : ClaimEntry :=
  if e.heldBy n then s.handedOver q { e with hold := none } else e

theorem removeHold_claim_self (n : StationId) (s : State) (q : Position) :
    (removeHold n s q).claim q = s.givenUp n q (s.claim q) := by
  rw [removeHold, State.givenUp]
  split
  · rw [handOver_claim, State.claim_setClaim_self]
    exact handedOver_congr rfl rfl q _
  · rfl

theorem givenUp_congr {t : State} (stations : t.stations = s.stations) (map : t.map = s.map) (n : StationId) (q : Position)
    (e : ClaimEntry) : t.givenUp n q e = s.givenUp n q e := by
  rw [State.givenUp, State.givenUp, handedOver_congr stations map]

theorem foldl_removeHold_claim_other (n : StationId) {l : List Position} {p : Position} (absent : p ∉ l) (s : State) :
    (l.foldl (removeHold n) s).claim p = s.claim p := by
  induction l generalizing s with
  | nil => rfl
  | cons q l ih =>
    obtain ⟨other, absent⟩ := List.ne_and_not_mem_of_not_mem_cons absent
    rw [List.foldl_cons, ih absent, removeHold_claim_other other]

/-- Each entry is given up once, whatever becomes of the others. -/
theorem foldl_removeHold_claim (n : StationId) {l : List Position} {p : Position} (distinct : l.Nodup) (listed : p ∈ l)
    (s : State) : (l.foldl (removeHold n) s).claim p = s.givenUp n p (s.claim p) := by
  induction l generalizing s with
  | nil => exact absurd listed List.not_mem_nil
  | cons q l ih =>
    obtain ⟨once, distinct⟩ := List.nodup_cons.mp distinct
    rw [List.foldl_cons]
    by_cases same : p = q
    · rw [foldl_removeHold_claim_other n (same ▸ once), same, removeHold_claim_self]
    · have later : p ∈ l := (List.mem_cons.mp listed).resolve_left same
      rw [ih distinct later, givenUp_congr (s := s) (by simp) (by simp), removeHold_claim_other same]

/-- The entry without the waits of station n (R90). -/
def ClaimEntry.unlisted (e : ClaimEntry) (n : StationId) : ClaimEntry :=
  { e with waiters := e.waiters.filter fun w => decide (w.station ≠ n) }

theorem ClaimEntry.unlisted_heldBy (e : ClaimEntry) (n m : StationId) : (e.unlisted n).heldBy m = e.heldBy m := rfl

theorem ClaimEntry.unlisted_waiters {e : ClaimEntry} {n : StationId} {w : Waiter} (h : w ∈ (e.unlisted n).waiters) :
    w.station ≠ n := by
  simpa using (List.mem_filter.mp h).2

theorem leaveLinked_claim (n : StationId) (s : State) (q : Position) :
    (leaveLinked n s).claim q = s.givenUp n q ((s.claim q).unlisted n) := by
  have entry : (leaveLinked n s).claim q = (removeClaims n s).claim q :=
    claim_congr (by simp [leaveLinked]) q
  rw [entry, removeClaims, foldl_removeHold_claim n (List.nodup_finRange 32) (List.mem_finRange q), removeWaits_claim]
  exact givenUp_congr rfl rfl n q _

theorem givenUp_other (h : e.heldBy n = false) (s : State) (q : Position) : s.givenUp n q e = e := by
  rw [State.givenUp, h]
  rfl

theorem givenUp_held (h : e.heldBy n = true) (s : State) (q : Position) :
    s.givenUp n q e = s.handedOver q { e with hold := none } := if_pos h

theorem givenUp_bar (s : State) (n : StationId) (q : Position) (e : ClaimEntry) : (s.givenUp n q e).bar = e.bar := by
  rw [State.givenUp]
  split
  · exact handedOver_bar s q _
  · rfl

/-- A station that does not wait at an entry is not in it once it has given the entry up (R89, R90). -/
theorem givenUp_clears (absent : ∀ w ∈ e.waiters, w.station ≠ n) (s : State) (q : Position) :
    (s.givenUp n q e).heldBy n = false ∧ ∀ w ∈ (s.givenUp n q e).waiters, w.station ≠ n := by
  cases held : e.heldBy n with
  | false =>
    rw [givenUp_other held]
    exact ⟨held, absent⟩
  | true =>
    rw [givenUp_held held]
    refine ⟨Bool.eq_false_iff.mpr fun again => ?_,
      fun w mem => absent w (mem_of_mem_handedOver_waiters (e := { e with hold := none }) mem)⟩
    obtain ⟨h, hold, holder⟩ := ClaimEntry.heldBy_iff.mp again
    obtain ⟨w, mem, station⟩ := handedOver_hold rfl hold
    exact absent w mem (station.trans holder)

end

/-! ### The commands in the CHAIN areas -/

/-- The areas that serve CHAIN are the same in both states, and hold the same frames. -/
def CommandsKept (s t : State) : Prop :=
  ∀ a, (t.area a).join = (s.area a).join ∧ ((s.area a).servesConsumer .chain = true → (t.area a).frames = (s.area a).frames)

theorem servesConsumer_congr {x y : Area} (h : x.join = y.join) (c : Consumer) : x.servesConsumer c = y.servesConsumer c := by
  simp only [Area.servesConsumer, h]

namespace CommandsKept

variable {s t u : State}

theorem of_areas (h : t.areas = s.areas) : CommandsKept s t := fun a => by
  rw [State.area, h]
  exact ⟨rfl, fun _ => rfl⟩

theorem of_output (h : OutputOnly s t) : CommandsKept s t := fun a => ⟨(h.layout a).2.2, h.commands a⟩

theorem refl (s : State) : CommandsKept s s := of_areas rfl

theorem trans (h : CommandsKept s t) (k : CommandsKept t u) : CommandsKept s u := fun a => by
  obtain ⟨joinT, framesT⟩ := h a
  obtain ⟨joinU, framesU⟩ := k a
  refine ⟨joinU.trans joinT, fun serves => ?_⟩
  rw [framesU (by rw [servesConsumer_congr joinT]; exact serves), framesT serves]

theorem foldl {α : Type} {f : State → α → State} (h : ∀ s x, CommandsKept s (f s x)) (l : List α) (s : State) :
    CommandsKept s (l.foldl f s) := by
  induction l generalizing s with
  | nil => exact refl s
  | cons x l ih => exact (h s x).trans (ih (f s x))

theorem handOver (q : Position) (s : State) : CommandsKept s (handOver q s) := by
  rw [Machine.handOver]
  simp only
  split
  · exact refl s
  · exact trans (of_areas (by simp)) (of_output (.answer _ _ _))

theorem removeClaims (n : StationId) (s : State) : CommandsKept s (removeClaims n s) := by
  have unlisted : CommandsKept s (removeWaits n s) := of_areas rfl
  refine unlisted.trans (foldl (fun s q => ?_) _ _)
  rw [removeHold]
  split
  · exact trans (of_areas (by simp)) (handOver q _)
  · exact refl s

theorem evaluateHold (s : State) (n : StationId) : CommandsKept s (evaluateHold s n) := by
  simp only [Machine.evaluateHold]
  (repeat' split)
  · exact refl s
  · exact trans (of_areas (by simp)) (of_output (.arenaTo _ _ _))
  · exact trans (of_areas (by simp)) (of_output (.arenaTo _ _ _))
  · exact of_areas (by simp)

theorem evaluatePartners (n : StationId) (s : State) : CommandsKept s (evaluatePartners n s) :=
  foldl (fun s m => by split; exact evaluateHold s m; exact refl s) _ s

end CommandsKept

/-- The purge takes the station's ELEMENT frames out of the areas that serve CHAIN, and keeps the order of the others (R30). -/
theorem purgeCommands_frames {a : AreaId} {s : State} (n : StationId) (serves : (s.area a).servesConsumer .chain = true) :
    ((purgeCommands n s).area a).frames
      = (s.area a).frames.filter fun f => ¬(f.kind = .element ∧ f.source = stationField n) := by
  have area : (purgeCommands n s).area a = { s.area a with
      frames := (s.area a).frames.filter fun f => !(decide (f.kind = .element) && decide (f.source = stationField n)) } := by
    simp only [State.area, purgeCommands, Table.get_map]
    exact if_pos serves
  rw [area]
  exact List.filter_congr fun f _ => by simp

theorem leaveLinked_area (n : StationId) (s : State) (a : AreaId) :
    (leaveLinked n s).area a = (purgeCommands n (removeClaims n s)).area a := by
  rw [State.area, leaveLinked, clearTags_areas]
  rfl

theorem leaveLinked_frames {a : AreaId} {s : State} (n : StationId) (serves : (s.area a).servesConsumer .chain = true) :
    ((leaveLinked n s).area a).frames
      = (s.area a).frames.filter fun f => ¬(f.kind = .element ∧ f.source = stationField n) := by
  obtain ⟨join, frames⟩ := CommandsKept.removeClaims n s a
  rw [leaveLinked_area, purgeCommands_frames n (by rw [servesConsumer_congr join]; exact serves), frames serves]

/-! ### The tag records -/

theorem leaveLinked_tag (n : StationId) (s : State) (k : TagId) :
    (leaveLinked n s).tag k = (s.tag k).map (TagRecord.clearStation n) := by
  have chain : (purgeCommands n (removeClaims n s)).chain = s.chain := by simp
  simp only [State.tag, leaveLinked, clearTags, Table.get_map, chain]

theorem clearStation_origin (n : StationId) (z : TagRecord) (sequence : Byte) :
    (z.clearStation n).origin ≠ .robot (some n) sequence := by
  rw [TagRecord.clearStation]
  split
  · next m sent origin =>
    split
    · exact fun h => nomatch h
    · next other =>
      rw [origin]
      exact fun h => other (Origin.robot.inj h).1
  · next r origin =>
    rw [origin]
    exact fun h => nomatch h

theorem clearStation_eq (n : StationId) (z : TagRecord) : z.clearStation n = match z.origin with
    | .robot (some m) sequence => if m = n then { z with origin := .robot none sequence } else z
    | _ => z := by
  rw [TagRecord.clearStation]
  rcases z.origin with ⟨_ | m, sequence⟩ | r <;> simp

/-! ### The departure, written out -/

theorem removeClaims_eq (n : StationId) (s : State) : removeClaims n s
    = (List.finRange 32).foldl (fun u q =>
        if (u.claim q).heldBy n then handOver q (u.setClaim q { u.claim q with hold := none }) else u)
      { s with claims := s.claims.map fun e => { e with waiters := e.waiters.filter fun w => decide (w.station ≠ n) } } := rfl

theorem purgeCommands_eq (n : StationId) (s : State) : purgeCommands n s = { s with
    areas := s.areas.map fun a =>
      if a.servesConsumer .chain then
        { a with frames := a.frames.filter fun f => ¬(f.kind = .element ∧ f.source = stationField n) }
      else a } := by
  have kept : (fun f : Frame => !(decide (f.kind = .element) && decide (f.source = stationField n)))
      = fun f => decide ¬(f.kind = .element ∧ f.source = stationField n) := by
    funext f
    simp
  rw [purgeCommands, kept]

theorem clearTags_eq (n : StationId) (s : State) : clearTags n s = { s with
    chain := { s.chain with tags := s.chain.tags.map fun t => t.map fun z => match z.origin with
      | .robot (some m) sequence => if m = n then { z with origin := .robot none sequence } else z
      | _ => z } } := by
  rw [clearTags, funext (clearStation_eq n)]

/-! ### The changes of a station -/

theorem changeStation_eq (n : StationId) (x : Station) (arena : Option ArenaNotice) (s : State) : changeStation n x arena s =
    let written := s.setStation n x
    let left := if (s.station n).state = .linked then leaveLinked n written else written
    let told := match arena with
      | some notice => arenaTo notice n left
      | none => left
    evaluatePartners n (stationChange n (s.station n).state x.state told) := by
  simp only [changeStation, Station.isLinked, decide_eq_true_eq] <;> rfl

theorem holdCondition_eq (s : State) (n : StationId) : s.holdCondition n
    = (s.control.phase.isDriven && (s.station n).partner.any fun k => decide ((s.station k).state ≠ .linked)) := by
  rw [State.holdCondition]
  cases (s.station n).partner <;> simp [Station.isLinked]

/-- A flag that fits already, and a record that is not a robot's, are left as they are (R32). -/
theorem evaluateHold_still {n : StationId} {s : State}
    (h : (s.station n).kind ≠ some .robot ∨ s.holdCondition n = (s.station n).held) : evaluateHold s n = s := by
  rw [evaluateHold]
  refine if_pos ?_
  rcases h with driver | fits
  · simp [Station.isRobot, driver]
  · simp [fits]

/-- A flag that changes is written and told (R33). -/
theorem evaluateHold_changes {n : StationId} {s : State} (robot : (s.station n).kind = some .robot)
    (h : s.holdCondition n ≠ (s.station n).held) : evaluateHold s n =
      let u := s.setStation n { s.station n with held := s.holdCondition n }
      if s.holdCondition n then arenaTo .hold n u else if s.control.phase.isDriven then arenaTo .unhold n u else u := by
  rw [evaluateHold]
  exact if_neg (by simpa [Station.isRobot, robot] using fun same => h same.symm)

section
variable {n : StationId} {s : State}

/-- What follows the departure is output and the held flags. -/
theorem evaluatePartners_told {u v : State} (told : OutputOnly u v) (n : StationId) (old new : StationState) :
    let t := evaluatePartners n (stationChange n old new v)
    t.claims = u.claims ∧ t.chain = u.chain ∧ CommandsKept u t := by
  have changed : CommandsKept v (stationChange n old new v) := .of_output (.stationChange n old new v)
  have evaluated := CommandsKept.evaluatePartners n (stationChange n old new v)
  refine ⟨?_, ?_, (CommandsKept.of_output told).trans (changed.trans evaluated)⟩
  · rw [evaluatePartners_claims, stationChange_claims, told.claims]
  · rw [evaluatePartners_chain, stationChange_chain, told.chain]

theorem changeStation_after_departure (linked : (s.station n).state = .linked) (x : Station) (arena : Option ArenaNotice) :
    (changeStation n x arena s).claims = (leaveLinked n (s.setStation n x)).claims
      ∧ (changeStation n x arena s).chain = (leaveLinked n (s.setStation n x)).chain
      ∧ CommandsKept (leaveLinked n (s.setStation n x)) (changeStation n x arena s) := by
  have changed := changeStation_eq n x arena s
  simp only [if_pos linked] at changed
  rw [changed]
  refine evaluatePartners_told ?_ n _ _
  cases arena with
  | none => exact .refl _
  | some notice => exact .arenaTo notice n _

theorem changeStation_claim (linked : (s.station n).state = .linked) (x : Station) (arena : Option ArenaNotice)
    (q : Position) : (changeStation n x arena s).claim q = (s.setStation n x).givenUp n q ((s.claim q).unlisted n) := by
  rw [claim_congr (changeStation_after_departure linked x arena).1, leaveLinked_claim]
  rfl

theorem changeStation_frames (linked : (s.station n).state = .linked) (x : Station) (arena : Option ArenaNotice) {a : AreaId}
    (serves : (s.area a).servesConsumer .chain = true) : ((changeStation n x arena s).area a).frames
      = (s.area a).frames.filter fun f => ¬(f.kind = .element ∧ f.source = stationField n) := by
  obtain ⟨_, _, kept⟩ := changeStation_after_departure linked x arena
  have joined : ((leaveLinked n (s.setStation n x)).area a).join = (s.area a).join :=
    ((AreasKept.leaveLinked n (s.setStation n x)).layout a).2.2
  rw [(kept a).2 (by rw [servesConsumer_congr joined]; exact serves)]
  exact leaveLinked_frames n serves

theorem changeStation_tag (linked : (s.station n).state = .linked) (x : Station) (arena : Option ArenaNotice) (k : TagId) :
    (changeStation n x arena s).tag k = (s.tag k).map (TagRecord.clearStation n) := by
  have chain := (changeStation_after_departure linked x arena).2.1
  rw [State.tag, chain]
  exact leaveLinked_tag n _ k

theorem eligible_setStation {e : ClaimEntry} {w : Waiter} (other : w.station ≠ n) (x : Station) :
    (s.setStation n x).eligible e w = s.eligible e w := by
  rw [State.eligible, State.eligible, State.station_setStation, if_neg other]

end

/-- The entry of a LINKED station that departs goes to its oldest waiter that may have it, without n among the waiters. -/
theorem changeStation_claim_given (linked : (s.station n).state = .linked) (x : Station) (arena : Option ArenaNotice)
    {q : Position} (held : (s.claim q).heldBy n = true) :
    let e := s.claim q
    let waiters := e.waiters.filter fun w => w.station ≠ n
    let most := (s.profile q).maxHold
    let eligible := fun w : Waiter => ∀ bar, e.bar = some bar → (s.station w.station).alliance ≠ bar.alliance
    let t := changeStation n x arena s
    ((∀ w ∈ waiters, ¬eligible w) → t.claim q = { hold := none, bar := e.bar, waiters })
    ∧ ∀ (before after : List Waiter) (w : Waiter), waiters = before ++ w :: after → eligible w →
        (∀ v ∈ before, ¬eligible v) →
        t.claim q = { hold := some { holder := w.station, remaining := grantedHold w.requested most }, bar := e.bar
                      waiters := before ++ after } := by
  intro e waiters most eligible t
  have given : t.claim q = (s.setStation n x).handedOver q { hold := none, bar := e.bar, waiters } := by
    rw [changeStation_claim linked, givenUp_held (e := (s.claim q).unlisted n) held]
    rfl
  have others : ∀ w ∈ waiters, w.station ≠ n := fun w mem => ClaimEntry.unlisted_waiters (e := e) mem
  have may : ∀ w ∈ waiters, ((s.setStation n x).eligible { hold := none, bar := e.bar, waiters } w = true ↔ eligible w) :=
    fun w mem => by rw [eligible_setStation (others w mem), eligible_iff]
  refine ⟨fun nobody => ?_, fun before after w list first barred => ?_⟩
  · rw [given, handedOver_none fun w mem => Bool.eq_false_iff.mpr fun h => nobody w mem ((may w mem).mp h)]
  · have listed : ∀ v, v = w ∨ v ∈ before → v ∈ waiters := fun v h => by
      rw [list, List.mem_append, List.mem_cons]
      exact h.elim (fun last => .inr (.inl last)) .inl
    have profile : (s.setStation n x).profile q = s.profile q := rfl
    rw [given, handedOver_some (before := before) (after := after) (w := w) list ((may w (listed w (.inl rfl))).mpr first)
      fun v mem => Bool.eq_false_iff.mpr fun h => barred v mem ((may v (listed v (.inr mem))).mp h), profile]

/-- Settles O15: the told changes and the departure are the model's own operations written out; then, entry by entry, area by area
and tag by tag, what the departure leaves, which the output after it does not touch. -/
theorem stationChangesAreToldAndDeparturesClear : Obligations.StationChangesAreToldAndDeparturesClear := by
  refine ⟨fun n s => ⟨fun x arena => changeStation_eq n x arena s, rfl, ?_⟩, fun n s => ?_, fun n x arena s linked => ?_⟩
  · intro x held
    have condition : s.holdCondition n = held := holdCondition_eq s n
    refine ⟨fun h => evaluateHold_still (by rwa [condition]), fun robot h => ?_⟩
    rw [evaluateHold_changes robot (by rwa [condition]), condition]
  · rw [leaveLinked, clearTags_eq, purgeCommands_eq, removeClaims_eq] <;> (dsimp only; rfl)
  · intro t
    refine ⟨fun q => ?_, fun q free => ?_, fun q held => changeStation_claim_given linked x arena held, fun q => ?_,
      fun a serves => changeStation_frames linked x arena serves, fun k => ⟨?_, fun r mem sequence => ?_⟩,
      by simp [t], by simp [t], by simp [t], by simp [t], by simp [t], ?_⟩
    · rw [changeStation_claim linked]
      exact givenUp_clears (fun w mem => ClaimEntry.unlisted_waiters mem) _ q
    · rw [changeStation_claim linked, givenUp_other (e := (s.claim q).unlisted n) free]
      exact ⟨rfl, rfl⟩
    · rw [changeStation_claim linked, givenUp_bar]
      rfl
    · rw [changeStation_tag linked, Option.isSome_map]
    · rw [changeStation_tag linked] at mem
      obtain ⟨z, _, rfl⟩ := Option.mem_map.mp mem
      exact clearStation_origin n z sequence
    · rw [changeStation_self]

end Sys2Proof.Machine
end

section
/-! SUPPORT. The rule table's requests: the names and the twelve bytes that a rule is written and read in, and what each request
makes of the classifier. -/

-- One theorem after the other: each elaboration task that runs beside another takes a stack from the check's memory limit.
set_option Elab.async false

namespace Sys2Proof.Machine

/-! ### Names and flags by their codes -/

theorem SourceClass.ofCode_code (c : SourceClass) : SourceClass.ofCode c.code = some c := by cases c <;> rfl

theorem SourceClass.ofCode_bad {k : Nat} (h : 2 < k) : SourceClass.ofCode k = none := by
  match k, h with
  | k + 3, _ => rfl

theorem Verdict.ofCode_code (v : Verdict) : Verdict.ofCode v.code = some v := by cases v <;> rfl

theorem Verdict.ofCode_bad {k : Nat} (h : 5 < k) : Verdict.ofCode k = none := by
  match k, h with
  | k + 6, _ => rfl

theorem KindDefault.ofCode_code (d : KindDefault) : KindDefault.ofCode d.code = some d := by cases d <;> rfl

theorem KindDefault.ofCode_bad {k : Nat} (h : 1 < k) : KindDefault.ofCode k = none := by
  match k, h with
  | k + 2, _ => rfl

theorem flagOf_of {k : Nat} (h : k ≤ 1) : flagOf k = some (decide (k = 1)) := by
  match k, h with
  | 0, _ => rfl
  | 1, _ => rfl

/-! ### The rule layout (R48) -/

/-- The twelve bytes spell the rule u at index i, but for its hit count, which they do not carry. -/
structure SpellsRule (bs : List Byte) (i : RuleIx) (u : Rule) : Prop where
  index : byteAt bs 0 = i.val
  kinds : u.kinds.toNat = wordAt bs 1
  sourceClass : u.sourceClass.code = byteAt bs 3
  alliances : u.alliances.toNat = byteAt bs 4
  stationValue : u.stationValue.toNat = byteAt bs 5
  stationMask : u.stationMask.toNat = byteAt bs 6
  ports : u.ports.toNat = byteAt bs 7
  phases : u.phases.toNat = byteAt bs 8
  verdict : u.verdict.code = byteAt bs 9
  steerArea : u.steerArea.val = byteAt bs 10
  label : u.label.toNat = byteAt bs 11

variable {bs : List Byte} {i : RuleIx} {u : Rule}

/-- A rule whose fields the bytes spell is the rule they are read as. -/
theorem SpellsRule.ruleOf_eq (h : SpellsRule bs i u) : ruleOf bs = some (i, { u with hits := 0 }) := by
  have bounds : ¬(2048 ≤ wordAt bs 1 ∨ 16 ≤ byteAt bs 4 ∨ 64 ≤ byteAt bs 5 ∨ 64 ≤ byteAt bs 6 ∨ 32 ≤ byteAt bs 7) := by
    rw [← h.kinds, ← h.alliances, ← h.stationValue, ← h.stationMask, ← h.ports]
    omega
  have label : bs.getD 11 0 = u.label := BitVec.eq_of_toNat_eq h.label.symm
  simp only [ruleOf, ofIndex_of i h.index, ← h.sourceClass, SourceClass.ofCode_code, ← h.verdict, Verdict.ofCode_code,
    ofIndex_of u.steerArea h.steerArea.symm, if_neg bounds, label]
  simp only [← h.kinds, ← h.alliances, ← h.stationValue, ← h.stationMask, ← h.ports, ← h.phases, BitVec.ofNat_toNat,
    BitVec.setWidth_eq]

/-- A field outside its encoding spells no rule. -/
theorem ruleOf_bad (h : 47 < byteAt bs 0 ∨ 2047 < wordAt bs 1 ∨ 2 < byteAt bs 3 ∨ 15 < byteAt bs 4 ∨ 63 < byteAt bs 5
    ∨ 63 < byteAt bs 6 ∨ 31 < byteAt bs 7 ∨ 5 < byteAt bs 9 ∨ 11 < byteAt bs 10) : ruleOf bs = none := by
  rw [ruleOf]
  split
  · next index sourceClass verdict steerArea =>
    have := ofIndex_val index
    have := ofIndex_val steerArea
    have classed : ¬2 < byteAt bs 3 := fun bad => nomatch (SourceClass.ofCode_bad bad).symm.trans sourceClass
    have judged : ¬5 < byteAt bs 9 := fun bad => nomatch (Verdict.ofCode_bad bad).symm.trans verdict
    exact if_pos (by omega)
  · rfl

theorem length_ruleBytes (i : RuleIx) (u : Rule) : (ruleBytes i u).length = 12 := rfl

/-- The bytes that READ_RULE answers are those with which WRITE_RULE writes the rule (R48, R49). -/
theorem spellsRule_ruleBytes (i : RuleIx) (u : Rule) : SpellsRule (ruleBytes i u) i u where
  index := byte_toNat_of_lt (by omega)
  kinds := by
    change _ = (byte (u.kinds.toNat / 256)).toNat * 256 + (byte u.kinds.toNat).toNat
    rw [byte_toNat, byte_toNat]
    omega
  sourceClass := (byte_toNat_of_lt (by cases u.sourceClass <;> decide)).symm
  alliances := (byte_toNat_of_lt (by omega)).symm
  stationValue := (byte_toNat_of_lt (by omega)).symm
  stationMask := (byte_toNat_of_lt (by omega)).symm
  ports := (byte_toNat_of_lt (by omega)).symm
  phases := (byte_toNat_of_lt u.phases.isLt).symm
  verdict := (byte_toNat_of_lt (by cases u.verdict <;> decide)).symm
  steerArea := (byte_toNat_of_lt (by omega)).symm
  label := rfl

/-! ### What the requests make of the tables (R48 to R51) -/

section
variable {r : Request} {s : State}

theorem exec_writeRule (h : r.args.length ≤ 46) (given : 12 ≤ r.args.length) :
    exec (.writeRule r) s = .next (reply 0x20 r (ownWriteRule r (mgmtArrives s))) := takeRequest_taken h given

theorem exec_readRule (h : r.args.length ≤ 46) (given : 2 ≤ r.args.length) :
    exec (.readRule r) s = .next (reply 0x21 r (ownReadRule r (mgmtArrives s))) := takeRequest_taken h given

theorem exec_ruleCount (h : r.args.length ≤ 46) (given : 1 ≤ r.args.length) :
    exec (.ruleCount r) s = .next (reply 0x22 r (ownRuleCount r (mgmtArrives s))) := takeRequest_taken h given

theorem exec_kindDefault (h : r.args.length ≤ 46) (given : 2 ≤ r.args.length) :
    exec (.kindDefault r) s = .next (reply 0x23 r (ownKindDefault r (mgmtArrives s))) := takeRequest_taken h given

theorem ownWriteRule_locked (h : s.control.phase.isIdle = false) : ownWriteRule r s = refuse .locked s := by
  rw [ownWriteRule, h]
  rfl

theorem ownWriteRule_bad (idle : s.control.phase.isIdle = true) (bad : ruleOf r.args = none) :
    ownWriteRule r s = refuse .badArgument s := by
  simp only [ownWriteRule, idle, bad, Bool.not_true, Bool.false_eq_true, if_false]

theorem ownWriteRule_spelled (idle : s.control.phase.isIdle = true) (h : SpellsRule r.args i u) :
    ownWriteRule r s = done (s.setRule i { u with hits := 0 }) := by
  simp only [ownWriteRule, idle, h.ruleOf_eq, Bool.not_true, Bool.false_eq_true, if_false]

theorem ownReadRule_bad (h : 47 < byteAt r.args 0 ∨ 1 < byteAt r.args 1) : ownReadRule r s = refuse .badArgument s := by
  rw [ownReadRule]
  split
  · next index flag =>
    have := ofIndex_val index
    have flagged : ¬1 < byteAt r.args 1 := fun bad => nomatch (flagOf_bad bad).symm.trans flag
    omega
  · rfl

theorem ownReadRule_named (index : byteAt r.args 0 = i.val) (flag : byteAt r.args 1 ≤ 1) :
    ownReadRule r s = done (if byteAt r.args 1 = 1 then s.setRule i { s.rule i with hits := 0 } else s)
      (ruleBytes i (s.rule i) ++ be16 (s.rule i).hits ++ [byte s.classifier.active]) := by
  simp only [ownReadRule, ofIndex_of i index, flagOf_of flag, decide_eq_true_eq]

theorem ownRuleCount_locked (h : s.control.phase.isIdle = false) : ownRuleCount r s = refuse .locked s := by
  rw [ownRuleCount, h]
  rfl

theorem ownRuleCount_idle (idle : s.control.phase.isIdle = true) :
    ownRuleCount r s = if 48 < byteAt r.args 0 then refuse .badArgument s
      else done { s with classifier := { s.classifier with active := byteAt r.args 0 } } := by
  rw [ownRuleCount, idle]
  rfl

theorem ownKindDefault_locked (h : s.control.phase.isIdle = false) : ownKindDefault r s = refuse .locked s := by
  rw [ownKindDefault, h]
  rfl

theorem ownKindDefault_bad (idle : s.control.phase.isIdle = true)
    (h : byteAt r.args 0 < 1 ∨ 7 < byteAt r.args 0 ∨ 1 < byteAt r.args 1) : ownKindDefault r s = refuse .badArgument s := by
  rw [ownKindDefault, if_neg (by simp [idle])]
  split
  · next kind default_ =>
    have := ofNum_val kind
    have coded : ¬1 < byteAt r.args 1 := fun bad => nomatch (KindDefault.ofCode_bad bad).symm.trans default_
    omega
  · rfl

theorem ownKindDefault_named (idle : s.control.phase.isIdle = true) {k : Fin 7} (kind : byteAt r.args 0 = k.val + 1)
    {d : KindDefault} (code : d.code = byteAt r.args 1) :
    ownKindDefault r s = done { s with classifier := { s.classifier with defaults := s.classifier.defaults.set k d } }
      ((s.classifier.defaults.set k d).items.map fun x => byte x.code) := by
  simp only [ownKindDefault, idle, ofNum_of k kind, ← code, KindDefault.ofCode_code, Bool.not_true, Bool.false_eq_true,
    if_false]

end

/-- Settles O17: each request is handed to its owner, which the phase locks; then the fields decide. -/
theorem ruleTableRequestsWriteTheTable : Obligations.RuleTableRequestsWriteTheTable := by
  intro r s len m b rule count default_
  have written : ∀ {o}, rule → ownWriteRule r m = o → exec (.writeRule r) s = .next (reply 0x20 r o) :=
    fun given h => h ▸ exec_writeRule len given
  have counted : ∀ {o}, count → ownRuleCount r m = o → exec (.ruleCount r) s = .next (reply 0x22 r o) :=
    fun given h => h ▸ exec_ruleCount len given
  have defaulted : ∀ {o}, default_ → ownKindDefault r m = o → exec (.kindDefault r) s = .next (reply 0x23 r o) :=
    fun given h => h ▸ exec_kindDefault len given
  refine ⟨fun busy => ⟨fun given => written given (ownWriteRule_locked busy),
    fun given => counted given (ownRuleCount_locked busy), fun given => defaulted given (ownKindDefault_locked busy)⟩,
    fun idle => ⟨fun given bad => written given (ownWriteRule_bad idle (ruleOf_bad bad)), ?_,
      fun given high => counted given ((ownRuleCount_idle (s := m) idle).trans (if_pos high)),
      fun given low => counted given ((ownRuleCount_idle (s := m) idle).trans (if_neg (Nat.not_lt.mpr low))),
      fun given bad => defaulted given (ownKindDefault_bad idle bad),
      fun k given kind d code => defaulted given (ownKindDefault_named (s := m) idle kind code)⟩⟩
  intro i u given index kinds sourceClass alliances stationValue stationMask ports phases verdict steerArea label fresh
  have spelled : SpellsRule r.args i u := ⟨index, kinds, sourceClass, alliances, stationValue, stationMask, ports, phases,
    verdict, steerArea, label⟩
  have unhit : { u with hits := 0 } = u := fresh ▸ rfl
  exact written given (unhit ▸ ownWriteRule_spelled idle spelled)

/-- Settles O18: the twelve bytes are the rule's layout, which WRITE_RULE reads back. -/
theorem readRuleReadsWhatWasWritten : Obligations.ReadRuleReadsWhatWasWritten := by
  intro r s given len m
  have read : ∀ {o}, ownReadRule r m = o → exec (.readRule r) s = .next (reply 0x21 r o) :=
    fun h => h ▸ exec_readRule len given
  exact ⟨fun bad => read (ownReadRule_bad bad), fun i index flag => ⟨ruleBytes i (s.rule i), length_ruleBytes i _,
    (spellsRule_ruleBytes i _).ruleOf_eq, read (ownReadRule_named index flag)⟩⟩

end Sys2Proof.Machine
end

section
/-! SUPPORT. The phase gate and the rule search: the phases each kind is admitted in, the frame that the gate refuses, and
when a rule is the first that matches. -/

-- One theorem after the other: each elaboration task that runs beside another takes a stack from the check's memory limit.
set_option Elab.async false

namespace Sys2Proof.Machine

variable {s : State} {k : RadioPort} {n : StationId}

/-! ### The phases a kind is admitted in (R40) -/

theorem Phase.isDriven_iff {p : Phase} : p.isDriven = true ↔ p = .running .driver ∨ p = .running .endgame := by
  rcases p with _ | _ | r | _ | _
  case running => cases r <;> simp [Phase.isDriven]
  all_goals simp [Phase.isDriven]

theorem Phase.isCommand_iff {p : Phase} :
    p.isCommand = true ↔ p = .running .auto ∨ p = .running .driver ∨ p = .running .endgame := by
  rcases p with _ | _ | r | _ | _
  case running => cases r <;> simp [Phase.isCommand]
  all_goals simp [Phase.isCommand]

theorem Phase.isRunning_iff {p : Phase} : p.isRunning = true ↔ ∃ r, p = .running r := by
  cases p <;> simp [Phase.isRunning]

theorem Phase.isPaused_iff {p : Phase} : p.isPaused = true ↔ ∃ r cause, p = .paused r cause := by
  cases p <;> simp [Phase.isPaused]

theorem phaseAdmits_release_of_isIdle {p : Phase} (h : p.isIdle = true) : phaseAdmits .release p = false := by
  cases p with
  | setup | staged | ended => rfl
  | running | paused => exact absurd h Bool.false_ne_true

/-! ### The frame that the gate refuses -/

theorem heard_of_linked (linked : (s.station n).state = .linked) : s.heard k n = (receiveIdle (.rl k) s).setStation n
    { s.station n with quiet := some s.stations.staleLimit, recordedPort := some k } := by
  rw [heard_eq, if_pos linked]

/-- A permitted frame of a LINKED station passes acceptance and comes to the phase gate (R17). -/
theorem stationFrame_passed {f : Frame} (source : stationOf f.source = some n) (linked : (s.station n).state = .linked)
    (permits : permitted f.kind (s.station n).kind = true) :
    stationFrame k f s = passPhaseGate k n f (roam k n (restartQuiet n s)) := by
  simp [stationFrame, source, linked, permits, Station.isLinked]

theorem passPhaseGate_refused {f : Frame} (gate : phaseAdmits f.kind s.control.phase = false) :
    passPhaseGate k n f s = refuseFrame .phase n f s := by
  simp only [passPhaseGate, gate, Bool.false_eq_true, if_false]

/-- A frame of a LINKED station of a kind that its record permits, in a phase that does not admit it, is refused where its
station has been heard. -/
theorem exec_refusedByPhase {c : Port → FrameBody → Instr} {kind : Kind} {f : FrameBody}
    (member : (c, kind) ∈ [(Instr.join, Kind.join), (Instr.beacon, .beacon), (Instr.pilot, .pilot), (Instr.telem, .telem),
      (Instr.element, .element), (Instr.claim, .claim), (Instr.release, .release)])
    (accepted : f.acceptable = true) (source : f.source.toNat = n.val + 1) (linked : (s.station n).state = .linked)
    (permits : permitted kind (s.station n).kind = true) (gate : phaseAdmits kind s.control.phase = false) :
    exec (c (.rl k) f) s = .next (refuseFrame .phase n { f with kind }
      ((receiveIdle (.rl k) s).setStation n
        { s.station n with quiet := some s.stations.staleLimit, recordedPort := some k })) := by
  rw [exec_stationKind member accepted, stationFrame_passed (stationOf_eq_some source) (by rwa [station_receiveIdle])
    (by rwa [station_receiveIdle]), ← State.heard, passPhaseGate_refused (by rwa [heard_control]), heard_of_linked linked]

theorem answer_of_recordedPort (h : (s.station n).recordedPort = some k) (a : Answer) : answer n a s = answerOn k n a s := by
  simp only [answer, h]

/-- A refused ELEMENT, CLAIM or RELEASE is answered with its position byte on the port on which its station was heard. -/
theorem refuseFrame_answers {kind : Kind} (h : kind = .element ∨ kind = .claim ∨ kind = .release)
    (recorded : (s.station n).recordedPort = some k) (code : AnswerCode) (f : FrameBody) :
    refuseFrame code n { f with kind } s = answerOn k n
      { code, kind, sequence := f.sequence, position := f.payload.headD 0, value := 0, extra := 0 } s := by
  rw [← answer_of_recordedPort recorded]
  rcases h with rfl | rfl | rfl <;> rfl

/-- A robot's ELEMENT, CLAIM or RELEASE that the gate refuses is answered PHASE on its ingress port. -/
theorem exec_answeredByPhase {c : Port → FrameBody → Instr} {kind : Kind} {f : FrameBody}
    (member : (c, kind) ∈ [(Instr.join, Kind.join), (Instr.beacon, .beacon), (Instr.pilot, .pilot), (Instr.telem, .telem),
      (Instr.element, .element), (Instr.claim, .claim), (Instr.release, .release)])
    (answered : kind = .element ∨ kind = .claim ∨ kind = .release)
    (accepted : f.acceptable = true) (source : f.source.toNat = n.val + 1) (linked : (s.station n).state = .linked)
    (robot : (s.station n).kind = some .robot) (gate : phaseAdmits kind s.control.phase = false) :
    exec (c (.rl k) f) s = .next (answerOn k n
      { code := .phase, kind, sequence := f.sequence, position := f.payload.headD 0, value := 0, extra := 0 }
      ((receiveIdle (.rl k) s).setStation n
        { s.station n with quiet := some s.stations.staleLimit, recordedPort := some k })) := by
  have permits : permitted kind (s.station n).kind = true := by
    rw [robot]
    rcases answered with rfl | rfl | rfl <;> rfl
  rw [exec_refusedByPhase member accepted source linked permits gate,
    refuseFrame_answers answered (by rw [State.station_setStation_self])]

/-- Settles O24: the gate's table is that of the phases' names; a frame that it refuses has been heard, and the answer takes
the port just recorded. -/
theorem phaseGateRefusesByKindAndPhase : Obligations.PhaseGateRefusesByKindAndPhase := by
  refine ⟨fun kind phase => ⟨?_, ?_, ?_, ?_⟩, fun k n f s accepted source linked => ?_⟩
  · rintro (rfl | rfl | rfl) <;> rfl
  · rintro rfl
    exact Phase.isDriven_iff
  · rintro (rfl | rfl) <;> exact Phase.isCommand_iff
  · rintro rfl
    rw [← Phase.isRunning_iff, ← Phase.isPaused_iff]
    exact Bool.or_eq_true _ _ ▸ Iff.rfl
  · intro u phase
    refine ⟨fun driver notDriver notEndgame => ?_, fun robot => ⟨fun notAuto notDriver notEndgame => ?_, fun idle => ?_⟩⟩
    · have gate : s.control.phase.isDriven = false :=
        Bool.eq_false_iff.mpr fun h => (Phase.isDriven_iff.mp h).elim notDriver notEndgame
      exact exec_refusedByPhase (kind := .pilot) (by simp) accepted source linked (by rw [driver]; rfl) gate
    · have gate : s.control.phase.isCommand = false :=
        Bool.eq_false_iff.mpr fun h => (Phase.isCommand_iff.mp h).elim notAuto fun h => h.elim notDriver notEndgame
      exact ⟨exec_answeredByPhase (kind := .element) (by simp) (by simp) accepted source linked robot gate,
        exec_answeredByPhase (kind := .claim) (by simp) (by simp) accepted source linked robot gate⟩
    · exact exec_answeredByPhase (kind := .release) (by simp) (by simp) accepted source linked robot
        (phaseAdmits_release_of_isIdle idle)

/-! ### The first rule that matches (R41, R42) -/

theorem SourceClass.admits_iff {c : SourceClass} {kind : Option StationKind} : c.admits kind = true ↔
    c = .any ∨ c = .robot ∧ kind = some .robot ∨ c = .driver ∧ kind = some .driver := by
  cases c <;> simp [SourceClass.admits]

theorem Rule.admits_iff {u : Rule} {f : Frame} : u.admits k n f s = true ↔
    u.kinds.getLsbD (f.kind.code - 1) = true
      ∧ (u.sourceClass = .any ∨ u.sourceClass = .robot ∧ (s.station n).kind = some .robot
          ∨ u.sourceClass = .driver ∧ (s.station n).kind = some .driver)
      ∧ u.alliances.getLsbD (s.station n).alliance.val = true
      ∧ f.source &&& u.stationMask = u.stationValue &&& u.stationMask
      ∧ u.ports.getLsbD (k.val + 1) = true ∧ u.phases.getLsbD s.control.phase.code = true := by
  simp only [Rule.admits, Bool.and_eq_true, SourceClass.admits_iff, decide_eq_true_eq, and_assoc, Port.code]

/-- Rule i is active and matches the frame. -/
def State.RuleFits (s : State) (k : RadioPort) (n : StationId) (f : Frame) (i : RuleIx) : Prop :=
  i.val < s.classifier.active ∧ (s.rule i).admits k n f s = true

theorem find?_finRange_eq_some_iff {m : Nat} {p : Fin m → Bool} {i : Fin m} :
    (List.finRange m).find? p = some i ↔ p i = true ∧ ∀ j, j < i → ¬p j = true := by
  refine ⟨fun found => ⟨List.find?_some found, fun j below fits => ?_⟩, fun ⟨fits, first⟩ => find?_finRange_eq_some fits first⟩
  obtain ⟨_, at_, inList, here, before⟩ := List.find?_eq_some_iff_getElem.mp found
  have index : at_ = i.val := by simpa [Fin.ext_iff] using here
  simpa [fits] using before j.val (index ▸ below)

theorem searchRules_eq_some_iff {f : Frame} {i : RuleIx} :
    s.searchRules k n f = some i ↔ s.RuleFits k n f i ∧ ∀ j, j < i → ¬s.RuleFits k n f j := by
  simp only [State.searchRules, find?_finRange_eq_some_iff, Bool.and_eq_true, decide_eq_true_eq, State.RuleFits]

theorem searchRules_eq_none_iff {f : Frame} : s.searchRules k n f = none ↔ ∀ i, ¬s.RuleFits k n f i := by
  simp only [State.searchRules, List.find?_eq_none, List.mem_finRange, true_implies, Bool.and_eq_true, decide_eq_true_eq,
    State.RuleFits]

/-- Settles O26: the search goes through the indices from 0 up, and a rule fits by its fields. -/
theorem searchFindsTheFirstMatchingRule : Obligations.SearchFindsTheFirstMatchingRule := by
  intro k n f s x fits
  have fits_iff : ∀ i, s.RuleFits k n f i ↔ fits i := fun i => and_congr_right fun _ => Rule.admits_iff
  simp only [← fits_iff]
  exact ⟨fun i => searchRules_eq_some_iff, searchRules_eq_none_iff⟩

end Sys2Proof.Machine
end

section
/-! SUPPORT. The router of PILOT and TELEM: the station a frame is forwarded to, and the port it leaves by. -/

-- One theorem after the other: each elaboration task that runs beside another takes a stack from the check's memory limit.
set_option Elab.async false

namespace Sys2Proof.Machine

variable {s u : State} {k : RadioPort} {n m : StationId} {f : Frame} {steer : Option AreaId}

/-- The station kind that a forwarded frame is for (R54). -/
def receiverKind (kind : Kind) : StationKind := if kind = .pilot then .robot else .driver

/-- The lane that a forwarded frame joins (R55). -/
def forwardLane (kind : Kind) : Lane := if kind = .pilot then .normal else .bulk

theorem stationOf_eq_some_iff {v : BitVec 6} : stationOf v = some m ↔ v.toNat = m.val + 1 :=
  ⟨ofNum_val, stationOf_eq_some⟩

/-- Station m is where n's frame is forwarded to: its destination and partner, of the other kind and paired back by the records
in s, and LINKED in u (R54). -/
def ForwardsTo (s u : State) (n : StationId) (f : Frame) (m : StationId) : Prop :=
  f.destination.toNat = m.val + 1 ∧ (s.station n).partner = some m ∧ (u.station m).state = .linked
    ∧ (s.station m).kind = some (receiverKind f.kind) ∧ (s.station m).partner = some n

theorem forwardTo_eq_some_iff : u.forwardTo n f = some m ↔ ForwardsTo u u n f m := by
  rw [ForwardsTo, ← stationOf_eq_some_iff, State.forwardTo]
  split
  · next none_ => simp [none_]
  · next l destination =>
    rw [destination, Option.some.injEq]
    constructor
    · intro h
      obtain ⟨conditions, same⟩ := Option.ite_none_right_eq_some.mp h
      obtain rfl := Option.some.inj same
      simpa [Station.isLinked, receiverKind] using conditions
    · rintro ⟨rfl, conditions⟩
      exact if_pos (by simpa [Station.isLinked, receiverKind] using conditions)

theorem handleForward_dropped (h : u.forwardTo n f = none) : handleForward n f steer u = u := by
  simp only [handleForward, h, Option.bind_none]

theorem handleForward_forwarded (h : u.forwardTo n f = some m) : handleForward n f steer u =
    (u.station m).recordedPort.elim u fun port => offerRadio port (forwardLane f.kind) steer f u := by
  simp only [handleForward, h, Option.bind_some]
  cases (u.station m).recordedPort <;> rfl

/-- Up to its handler a frame changes no partner and no kind of a record. -/
theorem ComesToHandler.forwardTo_eq_some_iff (h : ComesToHandler k n f s steer u) :
    u.forwardTo n f = some m ↔ ForwardsTo s u n f m := by
  have partner : ∀ j, (u.station j).partner = (s.station j).partner := fun j => by rw [h.station]
  have kind : (u.station m).kind = (s.station m).kind := by rw [h.station]
  rw [Machine.forwardTo_eq_some_iff, ForwardsTo, partner, partner, kind]
  rfl

/-- A frame at the router goes to the recorded port of the station it is forwarded to, or nowhere (R54, R55). -/
theorem ComesToHandler.handleForward_eq (h : ComesToHandler k n f s steer u) {_ : Decidable (∃ m, ForwardsTo s u n f m)} :
    handleForward n f steer u = if ∃ m, ForwardsTo s u n f m then
        match stationOf f.destination with
        | some m =>
          match (u.station m).recordedPort with
          | some port => offerRadio port (forwardLane f.kind) steer f u
          | none => u
        | none => u
      else u := by
  split
  · next found =>
    obtain ⟨m, forwards⟩ := found
    rw [handleForward_forwarded (h.forwardTo_eq_some_iff.mpr forwards), stationOf_eq_some forwards.1]
    dsimp only
    cases (u.station m).recordedPort <;> rfl
  · next missing =>
    exact handleForward_dropped (Option.eq_none_iff_forall_ne_some.mpr fun m forwarded =>
      missing ⟨m, h.forwardTo_eq_some_iff.mp forwarded⟩)

theorem exec_pilot_of_comesToHandler {f : FrameBody} (h : ComesToHandler k n { f with kind := .pilot } s steer u) :
    exec (.pilot (.rl k) f) s = .next (handleForward n { f with kind := .pilot } steer u) := arrival_of_comesToHandler h

theorem exec_telem_of_comesToHandler {f : FrameBody} (h : ComesToHandler k n { f with kind := .telem } s steer u) :
    exec (.telem (.rl k) f) s = .next (handleForward n { f with kind := .telem } steer u) := arrival_of_comesToHandler h

/-- Settles O28: both kinds come to the one router, each with its own receiver and lane. -/
theorem pilotAndTelemGoToThePartner : Obligations.PilotAndTelemGoToThePartner := by
  intro k n f s u steer
  exact ⟨fun h => (exec_pilot_of_comesToHandler h).trans (congrArg Host.Outcome.next h.handleForward_eq),
    fun h => (exec_telem_of_comesToHandler h).trans (congrArg Host.Outcome.next h.handleForward_eq)⟩

end Sys2Proof.Machine
end

section
/-! SUPPORT. The claim table as an invariant: what may become of an entry without a new claim, and the states in which the table
is again as its rules keep it. What an entry counts for a station stands for its hold and its waits at once. -/

-- One theorem after the other: each elaboration task that runs beside another takes a stack from the check's memory limit.
set_option Elab.async false

namespace Sys2Proof.Machine

variable {s t u : State} {n : StationId} {q : Position} {e x y : ClaimEntry}

/-! ### What an entry counts for a station -/

theorem ClaimEntry.waits_iff_countP :
    e.waits n = true ↔ 0 < e.waiters.countP fun w => decide (w.station = n) := by
  rw [ClaimEntry.waits_iff, List.countP_pos_iff]
  simp

/-- An entry counts for its holder and for its waiters. -/
theorem ClaimEntry.load_pos_iff : 0 < e.load n ↔ e.heldBy n = true ∨ e.waits n = true := by
  rw [ClaimEntry.waits_iff_countP, ClaimEntry.load]
  cases e.heldBy n <;> simp

theorem ClaimEntry.load_eq_zero_iff : e.load n = 0 ↔ e.heldBy n = false ∧ e.waits n = false := by
  rw [← Nat.le_zero, ← Nat.not_lt, ClaimEntry.load_pos_iff, not_or, Bool.not_eq_true, Bool.not_eq_true]

/-- An entry counts 1 at most for each station exactly when it lists none twice and not its holder. -/
theorem ClaimEntry.load_le_one_iff :
    (∀ n, e.load n ≤ 1) ↔ (e.waiters.map Waiter.station).Nodup ∧ ∀ n, e.heldBy n = true → e.waits n = false := by
  have count : ∀ n, (e.waiters.map Waiter.station).count n = e.waiters.countP fun w => decide (w.station = n) := fun n => by
    rw [List.count, List.countP_map]
    exact List.countP_congr fun w _ => by simp
  constructor
  · intro single
    refine ⟨List.nodup_iff_count_le_one.mpr fun n => ?_, fun n held => ?_⟩
    · rw [count]
      exact (Nat.le_add_left _ _).trans (single n)
    · by_contra waits
      have listed := ClaimEntry.waits_iff_countP.mp (by simpa using waits)
      have both := single n
      rw [ClaimEntry.load, held, Bool.toNat_true] at both
      omega
  · rintro ⟨distinct, apart⟩ n
    cases held : e.heldBy n with
    | false =>
      rw [ClaimEntry.load, held, Bool.toNat_false, Nat.zero_add]
      exact countP_le_one_of_nodup distinct n
    | true => rw [ClaimEntry.load, held, countP_eq_zero_of_waits (apart n held)]; rfl

theorem State.ClaimsFit.load_le_one (h : s.ClaimsFit) (q : Position) : ∀ n, (s.claim q).load n ≤ 1 :=
  ClaimEntry.load_le_one_iff.mpr ⟨h.distinct q, h.apart q⟩

/-- A station that is not LINKED has no claim and no wait (R89, R90). -/
theorem State.ClaimsFit.load_of_not_linked (h : s.ClaimsFit) (away : (s.station n).state ≠ .linked) (q : Position) :
    (s.claim q).load n = 0 := by
  by_contra counts
  exact away (h.linked q n (ClaimEntry.load_pos_iff.mp (Nat.pos_of_ne_zero counts))).1

/-- The entry of a station that waits is among what the station's entries count together. -/
theorem claimCount_lt_claimLoad (waits : (s.claim q).waits n = true) : s.claimCount n < claimLoad s.claims n := by
  have place := ClaimEntry.waits_iff_countP.mp waits
  have part : ((s.claim q).waiters.countP fun w => decide (w.station = n))
      ≤ ∑ p, (s.claim p).waiters.countP fun w => decide (w.station = n) :=
    Finset.single_le_sum (f := fun p => (s.claim p).waiters.countP fun w => decide (w.station = n))
      (fun _ _ => Nat.zero_le _) (Finset.mem_univ q)
  rw [claimLoad_eq]
  omega

/-! ### An entry on which no waiter may be granted -/

/-- No waiter of the entry may have it, where it is FREE (R73, R87). -/
def State.Settled (s : State) (e : ClaimEntry) : Prop := e.hold = none → ∀ w ∈ e.waiters, s.eligible e w = false

theorem State.ClaimsFit.settled (h : s.ClaimsFit) (q : Position) : s.Settled (s.claim q) := h.barred q

theorem settled_of_held (held : e.hold ≠ none) : s.Settled e := fun free => absurd free held

theorem settled_handedOver (s : State) (q : Position) (e : ClaimEntry) : s.Settled (s.handedOver q e) := by
  rw [State.handedOver]
  split
  · next nobody => exact fun _ w listed => by simpa using List.find?_eq_none.mp nobody w listed
  · exact settled_of_held (Option.some_ne_none _)

/-- Where the entry lists fewer waiters, and is FREE only where it was, it stays settled. -/
theorem State.Settled.of_waiters (h : s.Settled e) (hold : x.hold = none → e.hold = none)
    (bar : x.bar.map Bar.alliance = e.bar.map Bar.alliance) (waiters : x.waiters ⊆ e.waiters) : s.Settled x := by
  intro free w listed
  have eligible : s.eligible x w = s.eligible e w := by
    rw [State.eligible, State.eligible]
    revert bar
    cases x.bar <;> cases e.bar <;> simp +contextual
  rw [eligible]
  exact h (hold free) w (waiters listed)

/-! ### An entry that takes no new claim -/

/-- Entry x may come of entry e without a new claim: it lists no other waiter, counts for no station more than e, and stays
FREE and empty where e is. -/
structure ClaimEntry.Yields (e x : ClaimEntry) : Prop where
  waiters : x.waiters.Sublist e.waiters
  load : ∀ n, x.load n ≤ e.load n
  free : e = .free → x = .free

namespace ClaimEntry.Yields

theorem refl (e : ClaimEntry) : e.Yields e := ⟨.refl _, fun _ => le_rfl, id⟩

theorem trans (h : e.Yields x) (k : x.Yields y) : e.Yields y :=
  ⟨k.waiters.trans h.waiters, fun n => (k.load n).trans (h.load n), fun free => k.free (h.free free)⟩

/-- The entry has no new holder and no new waiter. -/
theorem of_held (held : ∀ n, x.heldBy n = true → e.heldBy n = true) (waiters : x.waiters.Sublist e.waiters)
    (free : e = .free → x = .free) : e.Yields x :=
  ⟨waiters, fun n => Nat.add_le_add (Bool.toNat_le_toNat (held n)) waiters.countP_le, free⟩

theorem waits (h : e.Yields x) (waits : x.waits n = true) : e.waits n = true := by
  rw [ClaimEntry.waits_iff] at waits ⊢
  obtain ⟨w, listed, station⟩ := waits
  exact ⟨w, h.waiters.subset listed, station⟩

/-- A held entry loses its holder (R85, R89). -/
theorem released (held : e.hold ≠ none) (bar : Option Bar) : e.Yields { e with hold := none, bar } :=
  of_held (fun _ held => absurd held Bool.false_ne_true) (.refl _) fun free => absurd (congrArg ClaimEntry.hold free) held

/-- Waiters leave the list (R81, R90). -/
theorem filtered (e : ClaimEntry) (p : Waiter → Bool) : e.Yields { e with waiters := e.waiters.filter p } :=
  of_held (fun _ => id) List.filter_sublist fun free => by subst free; rfl

theorem unbarred (e : ClaimEntry) : e.Yields { e with bar := none } :=
  of_held (fun _ => id) (.refl _) fun free => by subst free; rfl

theorem handedOver (s : State) (q : Position) (e : ClaimEntry) : e.Yields (s.handedOver q e) := by
  rw [State.handedOver]
  split
  · exact refl e
  · next w found =>
    refine ⟨List.eraseP_sublist, ClaimEntry.load_handOver found _, fun free => ?_⟩
    subst free
    exact nomatch found

theorem givenUp (s : State) (n : StationId) (q : Position) (e : ClaimEntry) : e.Yields (s.givenUp n q e) := by
  cases held : e.heldBy n with
  | false =>
    rw [givenUp_other held]
    exact refl e
  | true =>
    obtain ⟨hold, some, _⟩ := ClaimEntry.heldBy_iff.mp held
    rw [givenUp_held held]
    exact (released (by rw [some]; exact Option.some_ne_none _) e.bar).trans (handedOver s q _)

end ClaimEntry.Yields

/-! ### Stations as the claim table knows them -/

/-- What the claim table reads of a station's record is the same in both states: its state, kind and alliance. -/
def RobotsAlike (s t : State) : Prop := ∀ m,
  (t.station m).state = (s.station m).state ∧ (t.station m).kind = (s.station m).kind
    ∧ (t.station m).alliance = (s.station m).alliance

namespace RobotsAlike

theorem of_stations (h : t.stations = s.stations) : RobotsAlike s t := fun m => by
  rw [station_congr h]
  exact ⟨rfl, rfl, rfl⟩

theorem of_heldOnly (h : HeldOnly s t) : RobotsAlike s t := fun m => by
  rw [h m]
  exact ⟨rfl, rfl, rfl⟩

theorem trans (h : RobotsAlike s t) (k : RobotsAlike t u) : RobotsAlike s u := fun m => by
  obtain ⟨state, kind, alliance⟩ := h m
  obtain ⟨state', kind', alliance'⟩ := k m
  exact ⟨state'.trans state, kind'.trans kind, alliance'.trans alliance⟩

theorem setStation {x : Station} (state : x.state = (s.station n).state) (kind : x.kind = (s.station n).kind)
    (alliance : x.alliance = (s.station n).alliance) : RobotsAlike s (s.setStation n x) := fun m => by
  rw [State.station_setStation]
  split
  · next e => exact e ▸ ⟨state, kind, alliance⟩
  · exact ⟨rfl, rfl, rfl⟩

theorem settled (h : RobotsAlike s t) (settled : s.Settled e) : t.Settled e := fun free w listed => by
  rw [State.eligible, (h w.station).2.2]
  exact settled free w listed

end RobotsAlike

/-! ### A new claim -/

/-- What station acceptance and the phase gate see to before a CLAIM comes to its handler (R17, R40). -/
structure MayClaim (s : State) (n : StationId) : Prop where
  linked : (s.station n).state = .linked
  robot : (s.station n).kind = some .robot
  playing : s.control.phase.isIdle = false

theorem MayClaim.congr (h : MayClaim s n) (stations : t.stations = s.stations := by simp)
    (phase : t.control.phase = s.control.phase := by simp) : MayClaim t n := by
  have record := station_congr stations n
  exact ⟨record ▸ h.linked, record ▸ h.robot, phase ▸ h.playing⟩

/-- Entry x is entry e with a claim of station n more: n holds it now, or is listed at an entry that is HELD. -/
structure ClaimEntry.Takes (e x : ClaimEntry) (n : StationId) : Prop where
  fresh : e.load n = 0
  lists : x.waiters.length ≤ Config.maxWaiters
  load : ∀ m, x.load m = e.load m + if n = m then 1 else 0
  waits : ∀ m, x.waits m = true → e.waits m = true ∨ m = n
  held : x.hold ≠ none

namespace ClaimEntry.Takes

theorem load_le_one (h : e.Takes x n) (single : ∀ m, e.load m ≤ 1) (m : StationId) : x.load m ≤ 1 := by
  rw [h.load]
  split
  · next own => rw [← own, h.fresh]
  · exact single m

/-- A FREE entry is granted (R75, R76). -/
theorem granted (free : e.hold = none) (absent : e.waits n = false) (lists : e.waiters.length ≤ Config.maxWaiters)
    (remaining : Nat) : e.Takes { e with hold := some { holder := n, remaining } } n where
  fresh := ClaimEntry.load_eq_zero_iff.mpr ⟨by simp [ClaimEntry.heldBy, free], absent⟩
  lists := lists
  load := ClaimEntry.load_grant free _
  waits _ := .inl
  held := Option.some_ne_none _

/-- A robot is put at the end of the list of an entry that another holds (R77). -/
theorem queued {hold : Hold} (held : e.hold = some hold) (other : hold.holder ≠ n) (absent : e.waits n = false)
    (room : e.waiters.length < Config.maxWaiters) (requested : Nat) :
    e.Takes { e with waiters := e.waiters ++ [{ station := n, requested }] } n where
  fresh := ClaimEntry.load_eq_zero_iff.mpr ⟨by simp [ClaimEntry.heldBy, held, other], absent⟩
  lists := by rw [List.length_append, List.length_singleton]; exact room
  load := ClaimEntry.load_append _ _
  waits m waits := by
    obtain ⟨w, listed, station⟩ := ClaimEntry.waits_iff.mp waits
    rcases List.mem_append.mp listed with before | last
    · exact .inl (ClaimEntry.waits_iff.mpr ⟨w, before, station⟩)
    · rw [List.mem_singleton.mp last] at station
      exact .inr station.symm
  held := by simp [held]

end ClaimEntry.Takes

/-! ### The table is kept -/

/-- The claim table by what its entries count: where an entry counts 1 at most for a station it lists none twice and not its
holder, and 2 in all entries leave 1 hold to a robot that waits. -/
theorem claimsFit_of_loads (lists : ∀ q, (s.claim q).waiters.length ≤ Config.maxWaiters)
    (single : ∀ q n, (s.claim q).load n ≤ 1) (loads : ∀ n, claimLoad s.claims n ≤ Config.maxClaims)
    (once : ∀ p q n, (s.claim p).waits n = true → (s.claim q).waits n = true → p = q)
    (linked : ∀ q n, 0 < (s.claim q).load n → (s.station n).state = .linked ∧ (s.station n).kind = some .robot)
    (settled : ∀ q, s.Settled (s.claim q))
    (idle : s.control.phase.isIdle = true → ∀ q, s.claim q = .free)
    (partners : ∀ q, s.map.partners.get q = true → s.claim q = .free) : s.ClaimsFit where
  lists := lists
  linked q n claims := linked q n (ClaimEntry.load_pos_iff.mpr claims)
  once := once
  distinct q := (ClaimEntry.load_le_one_iff.mp (single q)).1
  apart q := (ClaimEntry.load_le_one_iff.mp (single q)).2
  held n := (claimCount_le_claimLoad s n).trans (loads n)
  heldWaiting _ n waits := (claimCount_lt_claimLoad waits).trans_le (loads n)
  barred := settled
  idle := idle
  partners := partners

/-- What holds of an entry that is written and of the others holds of them all. -/
theorem forall_claim_setClaim {P : Position → ClaimEntry → Prop} (here : P q x)
    (elsewhere : ∀ p, p ≠ q → P p (s.claim p)) (p : Position) : P p ((s.setClaim q x).claim p) := by
  rw [State.claim_setClaim]
  split
  · next same => exact same ▸ here
  · next other => exact elsewhere p other

/-- A change of a station that is not LINKED leaves the claim table alone. -/
theorem changeStation_claims_of_not_linked (away : (s.station n).state ≠ .linked) (x : Station)
    (arena : Option ArenaNotice) : (changeStation n x arena s).claims = s.claims := by
  rw [changeStation_eq]
  cases arena <;> simp [away]

namespace State.ClaimsFit

/-- Where no entry takes a new claim, what is to be seen to are the stations that still have one, and the FREE entries. -/
theorem of_yields (h : s.ClaimsFit) (entries : ∀ q, (s.claim q).Yields (t.claim q))
    (stations : ∀ q n, 0 < (t.claim q).load n →
      (t.station n).state = (s.station n).state ∧ (t.station n).kind = (s.station n).kind)
    (settled : ∀ q, t.Settled (t.claim q)) (phase : t.control.phase.isIdle = true → s.control.phase.isIdle = true)
    (partners : t.map.partners = s.map.partners) : t.ClaimsFit := by
  refine claimsFit_of_loads (fun q => (entries q).waiters.length_le.trans (h.lists q))
    (fun q n => ((entries q).load n).trans (h.load_le_one q n))
    (fun n => (Finset.sum_le_sum fun q _ => (entries q).load n).trans (h.claimLoad_le n))
    (fun p q n at_ elsewhere => h.once p q n ((entries p).waits at_) ((entries q).waits elsewhere))
    (fun q n claims => ?_) settled (fun idle q => (entries q).free (h.idle (phase idle) q))
    (fun q partner => (entries q).free (h.partners q (partners ▸ partner)))
  obtain ⟨state, kind⟩ := stations q n claims
  rw [state, kind]
  exact h.linked q n (ClaimEntry.load_pos_iff.mp (claims.trans_le ((entries q).load n)))

/-- Writes that no rule of the claim table reads. -/
theorem keep (h : s.ClaimsFit) (claims : t.claims = s.claims) (robots : RobotsAlike s t)
    (phase : t.control.phase.isIdle = true → s.control.phase.isIdle = true)
    (partners : t.map.partners = s.map.partners) : t.ClaimsFit := by
  have entry := claim_congr claims
  refine h.of_yields (fun q => entry q ▸ .refl _) (fun _ n _ => ⟨(robots n).1, (robots n).2.1⟩) (fun q => ?_) phase partners
  rw [entry]
  exact robots.settled (h.settled q)

/-- Writes of parts that the claim table does not follow. -/
theorem congr (h : s.ClaimsFit) (claims : t.claims = s.claims := by simp) (stations : t.stations = s.stations := by simp)
    (phase : t.control.phase = s.control.phase := by simp) (map : t.map = s.map := by simp) : t.ClaimsFit :=
  h.keep claims (.of_stations stations) (fun idle => phase ▸ idle) (by rw [map])

/-- One entry is written, without a new claim and settled. -/
theorem setClaim (h : s.ClaimsFit) (yields : (s.claim q).Yields x) (settled : s.Settled x) : (s.setClaim q x).ClaimsFit := by
  refine h.of_yields ?_ (fun _ _ _ => ⟨rfl, rfl⟩) ?_ id rfl
  · exact forall_claim_setClaim (P := fun p e => (s.claim p).Yields e) yields fun p _ => .refl _
  · exact forall_claim_setClaim (P := fun _ e => s.Settled e) settled fun p _ => h.settled p

/-- One entry is written without a new claim, and then handed over, so that it is settled again (R86, R87). -/
theorem handOver (h : s.ClaimsFit) (yields : (s.claim q).Yields x) (claims : u.claims = (s.setClaim q x).claims)
    (stations : u.stations = s.stations := by simp) (phase : u.control.phase = s.control.phase := by simp)
    (map : u.map = s.map := by simp) : (handOver q u).ClaimsFit := by
  have given : (Machine.handOver q u).claims = (s.setClaim q (s.handedOver q x)).claims := Table.eq_of_get fun p => by
    change (Machine.handOver q u).claim p = (s.setClaim q (s.handedOver q x)).claim p
    rw [State.claim_setClaim]
    split
    · next same =>
      rw [same, handOver_claim, handedOver_congr stations map, claim_congr claims, State.claim_setClaim_self]
    · next other => rw [handOver_claim_other other, claim_congr claims, State.claim_setClaim, if_neg other]
  exact (h.setClaim (yields.trans (.handedOver s q x)) (settled_handedOver s q x)).congr given (by simp [stations])
    (by simp [phase]) (by simp [map])

/-- A CLAIM that R75 grants or queues is written: the robot waits nowhere and holds 1 entry at most, and the position is not a
partner's (R66, R77). -/
theorem claimed (h : s.ClaimsFit) (may : MayClaim s n) (takes : (s.claim q).Takes x n)
    (nowhere : s.waitsAnywhere n = false) (room : s.claimCount n < Config.maxClaims)
    (ordinary : s.map.partners.get q = false) : (s.setClaim q x).ClaimsFit := by
  have unlisted : ∀ p, (s.claim p).waits n = false := fun p => by
    simp only [State.waitsAnywhere, List.any_eq_false, Bool.not_eq_true] at nowhere
    exact nowhere _ (Table.mem_items.mpr ⟨p, rfl⟩)
  have listed : ∀ p m, ((s.setClaim q x).claim p).waits m = true → (s.claim p).waits m = true ∨ (p = q ∧ m = n) :=
    forall_claim_setClaim (P := fun p e => ∀ m, e.waits m = true → (s.claim p).waits m = true ∨ (p = q ∧ m = n))
      (fun m waits => (takes.waits m waits).imp_right fun own => ⟨rfl, own⟩) fun p _ m waits => .inl waits
  refine claimsFit_of_loads ?_ ?_ (fun m => ?_) (fun p p' m at_ elsewhere => ?_) ?_ ?_
    (fun idle => absurd idle (by simp [may.playing])) ?_
  · exact forall_claim_setClaim (P := fun _ e => e.waiters.length ≤ Config.maxWaiters) takes.lists fun p _ => h.lists p
  · exact forall_claim_setClaim (P := fun _ e => ∀ m, e.load m ≤ 1) (takes.load_le_one (h.load_le_one q))
      fun p _ => h.load_le_one p
  · have moved : claimLoad (s.setClaim q x).claims m + (s.claim q).load m = claimLoad s.claims m + x.load m :=
      claimLoad_set s.claims q x m
    have before := h.claimLoad_le m
    rw [takes.load m] at moved
    split at moved
    · next own =>
      subst own
      rw [claimLoad_of_waitsAnywhere nowhere] at moved
      omega
    · omega
  · rcases listed p m at_ with here | ⟨rfl, rfl⟩ <;> rcases listed p' m elsewhere with there | ⟨rfl, own⟩
    · exact h.once p p' m here there
    · exact absurd (own ▸ here) (by simp [unlisted])
    · exact absurd there (by simp [unlisted])
    · rfl
  · refine forall_claim_setClaim
      (P := fun _ e => ∀ m, 0 < e.load m → (s.station m).state = .linked ∧ (s.station m).kind = some .robot)
      (fun m claims => ?_) fun p _ m claims => h.linked p m (ClaimEntry.load_pos_iff.mp claims)
    by_cases own : n = m
    · exact own ▸ ⟨may.linked, may.robot⟩
    · rw [takes.load m, if_neg own, Nat.add_zero] at claims
      exact h.linked q m (ClaimEntry.load_pos_iff.mp claims)
  · exact forall_claim_setClaim (P := fun _ e => s.Settled e) (settled_of_held takes.held) fun p _ => h.settled p
  · exact forall_claim_setClaim (P := fun p e => s.map.partners.get p = true → e = .free)
      (fun partner => absurd (ordinary.symm.trans partner) Bool.false_ne_true) fun p _ => h.partners p

/-! ### Changes of a station's record -/

/-- The record of a station that is not LINKED has no claim to answer for. -/
theorem setStation (h : s.ClaimsFit) (away : (s.station n).state ≠ .linked) (x : Station) :
    (s.setStation n x).ClaimsFit := by
  have absent := h.load_of_not_linked away
  refine h.of_yields (fun q => .refl _) (fun q m claims => ?_) (fun q free w listed => ?_) id rfl
  · have other : m ≠ n := fun e => absurd (absent q) (e ▸ claims).ne'
    rw [State.station_setStation, if_neg other]
    exact ⟨rfl, rfl⟩
  · have other : w.station ≠ n := fun e =>
      absurd (ClaimEntry.waits_iff.mpr ⟨w, listed, e⟩) (by simpa using (ClaimEntry.load_eq_zero_iff.mp (absent q)).2)
    rw [eligible_setStation other]
    exact h.settled q free w listed

/-- A departure from LINKED gives up what the station held and takes it off the lists (R89, R90). -/
theorem changeStation_linked (h : s.ClaimsFit) (linked : (s.station n).state = .linked) (x : Station)
    (arena : Option ArenaNotice) : (changeStation n x arena s).ClaimsFit := by
  have entry := changeStation_claim linked x arena
  have robots : RobotsAlike (s.setStation n x) (changeStation n x arena s) := .of_heldOnly (.changeStation n x arena s)
  have unlisted : ∀ q, (s.claim q).Yields ((s.claim q).unlisted n) := fun q => .filtered _ _
  refine h.of_yields (fun q => ?_) (fun q m claims => ?_) (fun q => robots.settled ?_) (by simp) (by simp)
  · rw [entry]
    exact (unlisted q).trans (.givenUp _ n q _)
  · have gone := givenUp_clears (e := (s.claim q).unlisted n) (fun w listed => ClaimEntry.unlisted_waiters listed)
      (s.setStation n x) q
    rw [← entry] at gone
    have other : m ≠ n := by
      rintro rfl
      rcases ClaimEntry.load_pos_iff.mp claims with held | waits
      · exact absurd held (by simp [gone.1])
      · obtain ⟨w, listed, station⟩ := ClaimEntry.waits_iff.mp waits
        exact gone.2 w listed station
    rw [changeStation_other other]
    exact ⟨rfl, rfl⟩
  · rw [entry]
    cases held : ((s.claim q).unlisted n).heldBy n with
    | true =>
      rw [givenUp_held held]
      exact settled_handedOver _ q _
    | false =>
      have settled : s.Settled ((s.claim q).unlisted n) :=
        (h.settled q).of_waiters id rfl (unlisted q).waiters.subset
      rw [givenUp_other held]
      intro free w listed
      rw [eligible_setStation (ClaimEntry.unlisted_waiters listed)]
      exact settled free w listed

/-- Whatever becomes of the record, a station that changes has no claim and no wait left. -/
theorem changeStation (h : s.ClaimsFit) (n : StationId) (x : Station) (arena : Option ArenaNotice) :
    (changeStation n x arena s).ClaimsFit := by
  by_cases linked : (s.station n).state = .linked
  · exact h.changeStation_linked linked x arena
  · exact (h.setStation linked x).keep (changeStation_claims_of_not_linked linked x arena)
      (.of_heldOnly (.changeStation n x arena s)) (by simp) (by simp)

end State.ClaimsFit

end Sys2Proof.Machine
end

section
/-! SUPPORT. The operations keep the claim table: the handlers of CLAIM and RELEASE, the expiries, the stages of a station frame,
the phases and the owners of requests; and with them every effect. -/

-- One theorem after the other: each elaboration task that runs beside another takes a stack from the check's memory limit.
set_option Elab.async false

namespace Sys2Proof.Machine

variable {s t u : State} {n : StationId} {q : Position} {e : ClaimEntry}

/-! ### What the operations do to entries and stations -/

/-- The entry that its holder gives up, or whose hold has run out, may be barred to the holder's alliance (R85). -/
theorem yields_barredEntry {hold : Hold} (held : (s.claim q).hold = some hold) (holder : StationId) :
    (s.claim q).Yields (barredEntry s q holder) := .released (by rw [held]; exact Option.some_ne_none _) _

theorem isIdle_of_admits_claim {p : Phase} (admits : phaseAdmits .claim p = true) : p.isIdle = false := by
  cases p with
  | setup | staged | ended => exact absurd admits Bool.false_ne_true
  | running | paused => rfl

/-- Station acceptance lets a CLAIM of a LINKED robot alone pass (R17). -/
theorem mayClaim_of_accepted {f : Frame} {k : RadioPort} (permits : permitted f.kind (s.station n).kind = true)
    (linked : ¬(f.kind ≠ .join ∧ f.kind ≠ .beacon ∧ (!(s.station n).isLinked) = true)) (kind : f.kind = .claim)
    (admits : phaseAdmits f.kind s.control.phase = true) : MayClaim (roam k n (restartQuiet n s)) n := by
  rw [kind] at permits linked admits
  have robot : (s.station n).kind = some .robot := by
    revert permits
    rcases (s.station n).kind with _ | _ | _ <;> simp [permitted]
  refine ⟨?_, ?_, isIdle_of_admits_claim (by simpa using admits)⟩
  · simpa [roam_station, restartQuiet, Station.isLinked] using linked
  · simpa [roam_station, restartQuiet] using robot

theorem RobotsAlike.elapse (k : Nat) (s : State) : RobotsAlike s (elapse k s) := fun m => by
  have record : (Machine.elapse k s).station m = { s.station m with quiet := countDown k (s.station m).quiet } := by
    rw [station_congr (elapse_stations k s)]
    simp [State.station, realTime]
  rw [record]
  exact ⟨rfl, rfl, rfl⟩

/-- Time makes no claim, and sets no bar (R74). -/
theorem ClaimEntry.Yields.elapse (k : Nat) (s : State) (q : Position) : (s.claim q).Yields ((elapse k s).claim q) := by
  refine .of_held (fun n held => ?_) ?_ fun free => ?_
  · rwa [← elapse_heldBy k s q n]
  · rw [elapse_waiters]
  · obtain ⟨hold, bar, counted, holder, alliance⟩ := elapse_claim k s q
    rw [free] at counted holder alliance
    rw [counted, Option.map_eq_none_iff.mp holder, Option.map_eq_none_iff.mp alliance]
    rfl

theorem State.Settled.elapse (h : s.Settled (s.claim q)) (k : Nat) : s.Settled ((elapse k s).claim q) := by
  obtain ⟨hold, bar, counted, holder, alliance⟩ := elapse_claim k s q
  rw [counted]
  refine h.of_waiters (fun free => ?_) alliance (List.Subset.refl _)
  cases free
  exact Option.map_eq_none_iff.mp holder.symm

theorem enterPhase_claims (new : Phase) (timer : Nat) :
    (enterPhase new timer s).claims = if new.isEnded then .fill 32 .free else s.claims := by
  simp only [enterPhase, tallyEntry_claims, chainEntry_claims, queueEntry_claims, creditEntry_claims, claimEntry]
  split <;> simp [clearClaims]

theorem RobotsAlike.enterPhase (new : Phase) (timer : Nat) : RobotsAlike s (Machine.enterPhase new timer s) := by
  let announced := announcePhase (s.setControl { s.control with
    phase := new, timer, accumulator := entryAccumulator new s.control.accumulator })
  have entered : RobotsAlike announced (holdEntry new announced) := .of_heldOnly (.holdEntry new announced)
  have before : RobotsAlike s announced := .of_stations (by simp [announced])
  exact (before.trans entered).trans (.of_stations (by simp [Machine.enterPhase, announced]))

theorem successor_isEnded_of_isIdle (c : PhaseControl) (r : Running) (idle : (c.successor r).1.isIdle = true) :
    (c.successor r).1.isEnded = true := by
  cases r with
  | auto | transit | driver => exact absurd idle Bool.false_ne_true
  | endgame => rfl

/-- FIELD_RESET clears the table, whatever the stations leave of it (R72, R195). -/
theorem fieldReset_claims : (fieldReset s).claims = .fill 32 .free := by
  simp only [fieldReset]
  split
  · rw [enterPhase_claims]
    rfl
  · rfl

namespace State.ClaimsFit

/-! ### CLAIM, RELEASE and the expiries -/

theorem answerClaim (h : s.ClaimsFit) (kind : Kind) (n : StationId) (f : FrameBody) (position : Byte) (code : AnswerCode)
    (extra : Nat) : (answerClaim kind n f position code extra s).ClaimsFit := h.congr

/-- A robot is granted an entry or listed at it only where the checks of R75 have found it without a wait and with 1 entry at
most. -/
theorem judgeClaim (h : s.ClaimsFit) (f : FrameBody) (may : MayClaim s n) (ordinary : s.map.partners.get q = false) :
    (judgeClaim n f q s).ClaimsFit := by
  simp only [Machine.judgeClaim]
  (repeat' split)
  any_goals exact h.answerClaim _ _ _ _ _ _
  · next hold held other absent nowhere room full =>
    have queued := ClaimEntry.Takes.queued held other (by simpa using absent) (Nat.not_le.mp full) (wordAt f.payload 1)
    exact (h.claimed may queued (by simpa using nowhere) (Nat.not_le.mp room) ordinary).answerClaim _ _ _ _ _ _
  · next free absent nowhere room _ =>
    have granted := ClaimEntry.Takes.granted (n := n) free (by simpa using absent) (h.lists q)
      (grantedHold (wordAt f.payload 1) (s.profile q).maxHold)
    exact (h.claimed may granted (by simpa using nowhere) (Nat.not_le.mp room) ordinary).answerClaim _ _ _ _ _ _

theorem handleClaim (h : s.ClaimsFit) (f : FrameBody) (may : MayClaim s n) : (handleClaim n f s).ClaimsFit := by
  simp only [Machine.handleClaim]
  (repeat' split)
  any_goals exact h.answerClaim _ _ _ _ _ _
  next ordinary _ => exact h.judgeClaim f may (by simpa [ArenaMap.isPartner] using ordinary)

theorem handleRelease (h : s.ClaimsFit) (n : StationId) (f : FrameBody) : (handleRelease n f s).ClaimsFit := by
  simp only [Machine.handleRelease]
  (repeat' split)
  any_goals exact h.answerClaim _ _ _ _ _ _
  · next p _ _ holds =>
    obtain ⟨hold, held, _⟩ := ClaimEntry.heldBy_iff.mp holds
    exact h.handOver (yields_barredEntry held n) (by simp)
  · next p _ _ _ _ =>
    have withdrawn := ClaimEntry.Yields.filtered (s.claim p) fun w => decide (w.station ≠ n)
    exact (h.setClaim withdrawn ((h.settled p).of_waiters id rfl withdrawn.waiters.subset)).answerClaim _ _ _ _ _ _

theorem holdExpired (h : s.ClaimsFit) (q : Position) : (holdExpired q s).ClaimsFit := by
  simp only [Machine.holdExpired]
  split
  · exact h
  · next hold held => exact h.handOver (yields_barredEntry held hold.holder) (by simp)

/-- A FREE entry whose bar ends is handed over; on a HELD one nobody is barred from waiting (R86). -/
theorem barExpired (h : s.ClaimsFit) (q : Position) : (barExpired q s).ClaimsFit := by
  simp only [Machine.barExpired]
  split
  · exact h.handOver (.unbarred _) rfl
  · next held => exact h.setClaim (.unbarred _) (settled_of_held held)

/-! ### Links and verdicts -/

theorem disableByVerdict (h : s.ClaimsFit) (n : StationId) : (disableByVerdict n s).ClaimsFit := by
  simp only [Machine.disableByVerdict, disableStation]
  split
  case h_4 | h_5 | h_6 => exact h
  all_goals exact h.changeStation n _ _

theorem quietExpired (h : s.ClaimsFit) (n : StationId) : (quietExpired n s).ClaimsFit := by
  simp only [Machine.quietExpired]
  split
  · exact h.changeStation n _ _
  · exact h.keep rfl (.setStation rfl rfl rfl) id rfl

theorem afterLink (h : s.ClaimsFit) (n : StationId) (old : StationState) : (afterLink n old s).ClaimsFit := by
  have told : RobotsAlike s (evaluatePartners n (stationChange n old .linked s)) :=
    .trans (.of_stations (by simp)) (.of_heldOnly (.evaluatePartners n _))
  refine h.keep (by simp) (told.trans (.of_stations ?_)) (by simp) (by simp)
  simp only [Machine.afterLink]
  split <;> simp

/-- A link takes a record that is not LINKED, or brings the port of a LINKED one up to date. -/
theorem linkRecord (h : s.ClaimsFit) (n : StationId) (k : RadioPort) : (linkRecord n k s).ClaimsFit := by
  by_cases linked : (s.station n).state = .linked
  · exact h.keep rfl (.setStation linked.symm rfl rfl) id rfl
  · exact h.setStation linked _

theorem handleJoin (h : s.ClaimsFit) (k : RadioPort) (n : StationId) (f : FrameBody) : (handleJoin k n f s).ClaimsFit := by
  have joined : (answerJoin k n .joinOk f.sequence (Machine.linkRecord n k s)).ClaimsFit := (h.linkRecord n k).congr
  simp only [Machine.handleJoin]
  (repeat' split)
  · exact h
  · exact h
  · exact joined.afterLink n _
  · exact h.congr
  · exact joined.afterLink n _
  · exact h.congr
  · exact joined
  · exact h.congr
  · exact h.congr

theorem handleBeacon (h : s.ClaimsFit) (k : RadioPort) (n : StationId) : (handleBeacon k n s).ClaimsFit := by
  simp only [Machine.handleBeacon]
  split
  · exact (h.linkRecord n k).afterLink n _
  · exact h.linkRecord n k
  all_goals exact h

/-! ### The stages of a station frame -/

theorem handleFrame (h : s.ClaimsFit) (k : RadioPort) (f : Frame) (steer : Option AreaId)
    (claim : f.kind = .claim → MayClaim s n) : (handleFrame k n f steer s).ClaimsFit := by
  simp only [Machine.handleFrame]
  split
  case h_1 => exact h.handleJoin k n _
  case h_2 => exact h.handleBeacon k n
  case h_6 kind => exact h.handleClaim _ (claim kind)
  case h_7 => exact h.handleRelease n _
  all_goals exact h.congr

theorem applyVerdict (h : s.ClaimsFit) (v : Rule) (k : RadioPort) (f : Frame) (claim : f.kind = .claim → MayClaim s n) :
    (applyVerdict v k n f s).ClaimsFit := by
  simp only [Machine.applyVerdict]
  split
  · exact h.handleFrame k f _ claim
  · exact State.ClaimsFit.handleFrame h.congr k f _ fun kind => (claim kind).congr
  · exact h.handleFrame k f _ claim
  · exact h.congr
  · exact h
  · exact h.disableByVerdict n

theorem passPhaseGate (h : s.ClaimsFit) (k : RadioPort) (f : Frame)
    (claim : f.kind = .claim → phaseAdmits f.kind s.control.phase = true → MayClaim s n) :
    (passPhaseGate k n f s).ClaimsFit := by
  simp only [Machine.passPhaseGate, applyRules]
  split
  · next admitted =>
    split
    · exact State.ClaimsFit.applyVerdict h.congr _ k f fun kind => (claim kind admitted).congr
    · split
      · exact h.handleFrame k f _ fun kind => claim kind admitted
      · exact h
  · exact h.congr

theorem restartQuiet (h : s.ClaimsFit) (n : StationId) : (restartQuiet n s).ClaimsFit :=
  h.keep rfl (.setStation rfl rfl rfl) id rfl

theorem roam (h : s.ClaimsFit) (k : RadioPort) (n : StationId) : (roam k n s).ClaimsFit := by
  simp only [Machine.roam]
  split
  · exact h.keep rfl (.setStation rfl rfl rfl) id rfl
  · exact h

theorem stationFrame (h : s.ClaimsFit) (k : RadioPort) (f : Frame) : (stationFrame k f s).ClaimsFit := by
  simp only [Machine.stationFrame]
  (repeat' split)
  · exact h
  · exact h.congr
  · exact h
  · exact h.restartQuiet _
  · exact h.restartQuiet _
  · next m _ _ permits linked =>
    refine ((h.restartQuiet m).roam k m).passPhaseGate k f fun kind admits => ?_
    exact mayClaim_of_accepted (by simpa using permits) (by simpa [Machine.restartQuiet] using linked) kind
      (by simpa using admits)

/-! ### Time and the phases -/

theorem elapse (h : s.ClaimsFit) (k : Nat) : (elapse k s).ClaimsFit :=
  h.of_yields (.elapse k s) (fun _ n _ => ⟨(RobotsAlike.elapse k s n).1, (RobotsAlike.elapse k s n).2.1⟩)
    (fun q => (RobotsAlike.elapse k s).settled ((h.settled q).elapse k)) (by simp) (by simp)

/-- ENDED clears the table; into SETUP and STAGED the match comes from phases in which it is clear already (R95). -/
theorem enterPhase (h : s.ClaimsFit) {new : Phase} (timer : Nat)
    (entry : new.isIdle = true → new.isEnded = true ∨ s.control.phase.isIdle = true) : (enterPhase new timer s).ClaimsFit := by
  cases ended : new.isEnded with
  | true =>
    refine claimsFit_of_free fun q => ?_
    rw [State.claim, enterPhase_claims, if_pos ended, Table.get_fill]
  | false =>
    refine h.keep ?_ (.enterPhase new timer) (fun idle => ?_) (by simp)
    · rw [enterPhase_claims, if_neg (by simp [ended])]
    · have idle : new.isIdle = true := by simpa [Machine.enterPhase] using idle
      exact (entry idle).resolve_left (by simp [ended])

theorem passThroughIn (k : Nat) (h : s.ClaimsFit) : (passThroughIn k s).ClaimsFit := by
  induction k generalizing s with
  | zero => exact h
  | succ k ih =>
    simp only [Machine.passThroughIn]
    (repeat' split)
    · exact ih (h.enterPhase _ fun idle => .inl (successor_isEnded_of_isIdle _ _ idle))
    · exact h
    · exact h

theorem passThrough (h : s.ClaimsFit) : (passThrough s).ClaimsFit := h.passThroughIn 4

/-- A running phase and PAUSED are entered from any phase. -/
theorem enterMatch (h : s.ClaimsFit) {new : Phase} (timer : Nat) (playing : new.isIdle = false) :
    (Machine.enterPhase new timer s).ClaimsFit :=
  h.enterPhase timer fun idle => absurd idle (by simp [playing])

theorem silenceExpired (h : s.ClaimsFit) : (silenceExpired s).ClaimsFit := by
  have stopped : (s.setControl { s.control with silence := none }).ClaimsFit := h.congr rfl rfl rfl rfl
  simp only [Machine.silenceExpired]
  split
  · exact stopped.enterMatch _ rfl
  · exact stopped

/-! ### The owners of requests -/

theorem ownFieldReset (h : s.ClaimsFit) : (ownFieldReset s).state.ClaimsFit := by
  simp only [Machine.ownFieldReset]
  (repeat' split) <;> simp only [done_state, refuse_state, h]
  exact claimsFit_of_free fun q => by rw [State.claim, fieldReset_claims, Table.get_fill]

/-- What a request of SETUP does leaves the entries FREE and empty when it does not touch them. -/
theorem of_setup (h : s.ClaimsFit) (setup : s.control.phase = .setup) (claims : t.claims = s.claims) : t.ClaimsFit :=
  claimsFit_of_free fun q => by rw [claim_congr claims, h.idle (by rw [setup]; rfl)]

theorem ownEnrol (h : s.ClaimsFit) (r : Request) : (ownEnrol r s).state.ClaimsFit := by
  by_cases setup : s.control.phase = .setup
  · exact h.of_setup setup (ownEnrol_claims s r)
  · rwa [ownEnrol_locked setup]

/-- A partner is declared in SETUP alone, where its entry is FREE and empty (R66). -/
theorem ownPartner (h : s.ClaimsFit) (r : Request) : (ownPartner r s).state.ClaimsFit := by
  by_cases setup : s.control.phase = .setup
  · exact h.of_setup setup (ownPartner_claims s r)
  · rwa [Machine.ownPartner, if_pos setup]

theorem ownUnenrol (h : s.ClaimsFit) (r : Request) : (ownUnenrol r s).state.ClaimsFit := by
  simp only [Machine.ownUnenrol]
  (repeat' split) <;> simp only [done_state, refuse_state, h]
  exact h.changeStation _ _ _

theorem ownDisable (h : s.ClaimsFit) (r : Request) : (ownDisable r s).state.ClaimsFit := by
  simp only [Machine.ownDisable, disableStation]
  (repeat' split) <;> simp only [done_state, refuse_state, h]
  all_goals exact h.changeStation _ _ _

theorem ownEnable (h : s.ClaimsFit) (r : Request) : (ownEnable r s).state.ClaimsFit := by
  simp only [Machine.ownEnable]
  (repeat' split) <;> simp only [done_state, refuse_state, h]
  exact h.changeStation _ _ _

theorem ownEject (h : s.ClaimsFit) (r : Request) : (ownEject r s).state.ClaimsFit := by
  simp only [Machine.ownEject]
  (repeat' split) <;> simp only [done_state, refuse_state, h]
  all_goals exact h.changeStation _ _ _

theorem ownStaleLimit (h : s.ClaimsFit) (r : Request) : (ownStaleLimit r s).state.ClaimsFit := by
  simp only [Machine.ownStaleLimit]
  split
  · exact h
  · exact h.keep rfl (fun _ => ⟨rfl, rfl, rfl⟩) id rfl

/-- Windows, the hide set and the profiles are no part of the claim table. -/
theorem setMap (h : s.ClaimsFit) {m : ArenaMap} (partners : m.partners = s.map.partners) : (s.setMap m).ClaimsFit :=
  h.keep rfl (.of_stations rfl) id partners

theorem ownMapWindow (h : s.ClaimsFit) (r : Request) : (ownMapWindow r s).state.ClaimsFit := by
  simp only [Machine.ownMapWindow]
  (repeat' split) <;> simp only [done_state, refuse_state, h]
  all_goals exact h.setMap rfl

theorem ownHide (h : s.ClaimsFit) (r : Request) : (ownHide r s).state.ClaimsFit := by
  simp only [Machine.ownHide]
  split <;> simp only [done_state, refuse_state, h]
  exact h.setMap rfl

theorem ownProfile (h : s.ClaimsFit) (r : Request) : (ownProfile r s).state.ClaimsFit := by
  simp only [Machine.ownProfile]
  (repeat' split) <;> simp only [done_state, refuse_state, h]
  exact h.setMap rfl

theorem ownStage (h : s.ClaimsFit) : (ownStage s).state.ClaimsFit := by
  by_cases setup : s.control.phase = .setup
  · simp only [Machine.ownStage]
    (repeat' split) <;> simp only [done_state, refuse_state, h]
    exact h.enterPhase 0 fun _ => .inr (by rw [setup]; rfl)
  · rwa [ownStage_locked setup]

theorem ownUnstage (h : s.ClaimsFit) : (ownUnstage s).state.ClaimsFit := by
  by_cases staged : s.control.phase = .staged
  · rw [ownUnstage_staged staged, done_state]
    exact h.enterPhase 0 fun _ => .inr (by rw [staged]; rfl)
  · rwa [ownUnstage_locked staged]

theorem ownStart (h : s.ClaimsFit) : (ownStart s).state.ClaimsFit := by
  have cleared : (s.setControl { s.control with accumulator := 0 }).ClaimsFit := h.congr rfl rfl rfl rfl
  simp only [Machine.ownStart]
  split <;> simp only [done_state, refuse_state, h]
  exact (cleared.enterMatch _ rfl).passThrough

theorem ownPause (h : s.ClaimsFit) : (ownPause s).state.ClaimsFit := by
  simp only [Machine.ownPause]
  split <;> simp only [done_state, refuse_state, h]
  exact h.enterMatch _ rfl

theorem ownResume (h : s.ClaimsFit) : (ownResume s).state.ClaimsFit := by
  simp only [Machine.ownResume]
  split <;> simp only [done_state, refuse_state, h]
  exact (h.enterMatch _ rfl).passThrough

theorem ownAbort (h : s.ClaimsFit) : (ownAbort s).state.ClaimsFit := by
  simp only [Machine.ownAbort]
  split <;> simp only [done_state, refuse_state, h]
  all_goals exact h.enterPhase _ fun _ => .inl rfl

theorem ownerOf (h : s.ClaimsFit) (code : Nat) (r : Request) : (ownerOf code r s).state.ClaimsFit := by
  unfold Machine.ownerOf
  split
  any_goals simp only [h.ownFieldReset, h.ownEnrol, h.ownUnenrol, h.ownDisable, h.ownEnable, h.ownEject, h.ownStaleLimit,
    h.ownMapWindow, h.ownHide, h.ownPartner, h.ownProfile, h.ownStage, h.ownUnstage, h.ownStart, h.ownPause, h.ownResume,
    h.ownAbort]
  all_goals exact h.congr

/-! ### The effects -/

/-- After a restart every entry is FREE and empty (R72). -/
theorem restart (cause : StartCause) : (restart cause s).ClaimsFit := claimsFit_of_free fun q => by
  rw [State.claim, Machine.restart, notice_claims, powerOnBlocks, Table.get_fill]

theorem effect (h : s.ClaimsFit) (e : Effect s t) : t.ClaimsFit := by
  cases e with
  | restarted cause => exact restart cause
  | station k f => exact State.ClaimsFit.stationFrame h.congr k f
  | owned code r =>
    have arrived : (mgmtArrives s).ClaimsFit := h.congr
    exact (arrived.ownerOf code r).congr
  | quiet n k => exact (h.elapse k).quietExpired n
  | hold q k => exact (h.elapse k).holdExpired q
  | bar q k => exact (h.elapse k).barExpired q
  | phase k => exact (h.elapse k).passThrough
  | silence k => exact (h.elapse k).silenceExpired
  | tick k => exact (h.elapse k).congr rfl rfl rfl rfl
  | timeout t k | unanswered c k | settled g k | final k => exact (h.elapse k).congr
  | _ => exact h.congr

theorem step (h : s.ClaimsFit) (hs : step s = .next t) : t.ClaimsFit :=
  step_keeps (fun _ _ h => h.congr) (fun _ h => h.elapse 1) (fun _ _ h e => h.effect e) h hs

end State.ClaimsFit

/-- Settles O58: no effect gives a robot a claim but CLAIM itself and the hand-over, which makes a hold of a wait; each of them
leaves the entries it writes settled, and a departure leaves none to its station. -/
theorem everyStepKeepsTheClaimTable : Obligations.EveryStepKeepsTheClaimTable := fun _ _ h hs => h.step hs

end Sys2Proof.Machine
end

section
/-! SUPPORT. The arena map: the decode of a position, and what MAP_WINDOW, HIDE, PROFILE and PARTNER make of the map. -/

-- One theorem after the other: each elaboration task that runs beside another takes a stack from the check's memory limit.
set_option Elab.async false

namespace Sys2Proof.Machine

/-! ### The decode (R59 to R61) -/

section
variable {m : ArenaMap} {q lead : Position}

/-- A window contains the numbers from its base to its limit, and none when the limit is below the base (R59). -/
theorem Window.contains_iff {w : Window} : w.contains q = true ↔ w.base ≤ q.val + 1 ∧ q.val + 1 ≤ w.limit := by
  simp only [Window.contains, Bool.and_eq_true, decide_eq_true_eq]
  constructor
  · exact fun ⟨⟨_, low⟩, high⟩ => ⟨low, high⟩
  · exact fun ⟨low, high⟩ => ⟨⟨low.trans high, low⟩, high⟩

theorem leadOf_eq (next : q.val = lead.val + 1) : leadOf q = lead := Fin.ext (by simp only [leadOf]; omega)

theorem effective_partner (partner : m.partners.get q = true) (next : q.val = lead.val + 1) : m.effective q = lead := by
  rw [ArenaMap.effective, ArenaMap.isPartner, if_pos partner, leadOf_eq next]

theorem effective_own (own : m.partners.get q = false) : m.effective q = q := by
  rw [ArenaMap.effective, ArenaMap.isPartner, own, if_neg Bool.false_ne_true]

theorem hidden_iff : m.hidden q = true ↔ m.hideSet.get q = true ∨ m.hideSet.get (m.effective q) = true := by
  rw [ArenaMap.hidden, Bool.or_eq_true]

/-- Some home window contains the position. -/
theorem any_homes_iff : (m.homes.items.any (·.contains q)) = true ↔
    ∃ b, (m.homes.get b).base ≤ q.val + 1 ∧ q.val + 1 ≤ (m.homes.get b).limit := by
  simp only [List.any_eq_true, Table.mem_items, exists_exists_eq_and, Window.contains_iff]

end

/-- Settles O21: the position that governs q is its lead or q itself, and the steps are those of the decode with each window test
read as bounds. -/
theorem decodeTakesItsStepsInOrder : Obligations.DecodeTakesItsStepsInOrder := by
  intro m a q at_ governs lies
  have effective : m.effective q = at_ := by
    rcases governs with ⟨partner, _, next⟩ | ⟨own, rfl⟩
    · exact effective_partner partner next.symm
    · exact effective_own own
  rw [ArenaMap.decode, ArenaMap.windowClass, effective]
  refine if_congr ?_ rfl (if_congr Window.contains_iff rfl (if_congr any_homes_iff rfl (if_congr Window.contains_iff rfl rfl)))
  rw [hidden_iff, effective]

/-! ### MAP_WINDOW, HIDE and PROFILE (R63, R64, R69) -/

section
variable {r : Request} {s : State} {q : Position}

theorem exec_mapWindow (h : r.args.length ≤ 46) (given : 3 ≤ r.args.length) :
    exec (.mapWindow r) s = .next (reply 0x30 r (ownMapWindow r (mgmtArrives s))) := takeRequest_taken h given

theorem exec_hide (h : r.args.length ≤ 46) (given : 2 ≤ r.args.length) :
    exec (.hide r) s = .next (reply 0x31 r (ownHide r (mgmtArrives s))) := takeRequest_taken h given

theorem exec_profile (h : r.args.length ≤ 46) (given : 7 ≤ r.args.length) :
    exec (.profile r) s = .next (reply 0x33 r (ownProfile r (mgmtArrives s))) := takeRequest_taken h given

theorem ownMapWindow_locked (h : s.control.phase ≠ .setup) : ownMapWindow r s = refuse .locked s := if_pos h

theorem ownMapWindow_bad (setup : s.control.phase = .setup)
    (h : 4 < byteAt r.args 0 ∨ byteAt r.args 1 < 1 ∨ 32 < byteAt r.args 1 ∨ 32 < byteAt r.args 2) :
    ownMapWindow r s = refuse .badArgument s := by
  rw [ownMapWindow, if_neg (not_not.mpr setup)]
  exact if_pos h

/-- With good arguments the number names the home window of an alliance or the shared one. -/
theorem ownMapWindow_good (setup : s.control.phase = .setup) (window : byteAt r.args 0 ≤ 4) (low : 1 ≤ byteAt r.args 1)
    (high : byteAt r.args 1 ≤ 32) (limit : byteAt r.args 2 ≤ 32) :
    ownMapWindow r s =
      let x : Window := { base := byteAt r.args 1, limit := byteAt r.args 2 }
      match ofIndex 4 (byteAt r.args 0) with
      | some a => done (s.setMap { s.map with homes := s.map.homes.set a x })
      | none => done (s.setMap { s.map with shared := x }) :=
  (if_neg (not_not.mpr setup)).trans (if_neg (by dsimp only; omega))

theorem ownMapWindow_home (setup : s.control.phase = .setup) (low : 1 ≤ byteAt r.args 1) (high : byteAt r.args 1 ≤ 32)
    (limit : byteAt r.args 2 ≤ 32) {a : Alliance} (window : byteAt r.args 0 = a.val) :
    ownMapWindow r s = done (s.setMap { s.map with
      homes := s.map.homes.set a { base := byteAt r.args 1, limit := byteAt r.args 2 } }) := by
  rw [ownMapWindow_good setup (by omega) low high limit, ofIndex_of a window]

theorem ownMapWindow_shared (setup : s.control.phase = .setup) (low : 1 ≤ byteAt r.args 1) (high : byteAt r.args 1 ≤ 32)
    (limit : byteAt r.args 2 ≤ 32) (window : byteAt r.args 0 = 4) :
    ownMapWindow r s = done (s.setMap { s.map with shared := { base := byteAt r.args 1, limit := byteAt r.args 2 } }) := by
  rw [ownMapWindow_good setup window.le low high limit, ofIndex_bad window.ge]

theorem ownHide_bad (h : byteAt r.args 0 < 1 ∨ 32 < byteAt r.args 0 ∨ 1 < byteAt r.args 1) :
    ownHide r s = refuse .badArgument s := by
  rw [ownHide]
  split
  · next position flag =>
    have := ofNum_val position
    have flagged : ¬1 < byteAt r.args 1 := fun bad => nomatch (flagOf_bad bad).symm.trans flag
    omega
  · rfl

theorem ownHide_named (position : byteAt r.args 0 = q.val + 1) (flag : byteAt r.args 1 ≤ 1) :
    ownHide r s =
      let hideSet := s.map.hideSet.set q (byteAt r.args 1 == 1)
      done (s.setMap { s.map with hideSet }) (setBytes hideSet) := by
  simp only [ownHide, ofNum_of q position, flagOf_of flag]
  rfl

theorem ownProfile_locked (h : s.control.phase.isIdle = false) : ownProfile r s = refuse .locked s := by
  rw [ownProfile, h]
  rfl

/-- In SETUP, STAGED and ENDED the position is checked first and then the ranges of the profile. -/
theorem ownProfile_idle (idle : s.control.phase.isIdle = true) :
    ownProfile r s = match ofNum 32 (byteAt r.args 0) with
      | none => refuse .badArgument s
      | some q =>
        if wordAt r.args 1 < 100 ∨ 60000 < wordAt r.args 1 ∨ 10000 < wordAt r.args 3 ∨ byteAt r.args 5 < 1
            ∨ 64 < byteAt r.args 5 ∨ byteAt r.args 6 < 1 ∨ 64 < byteAt r.args 6 then refuse .badArgument s
        else done (s.setMap { s.map with
          profiles := s.map.profiles.set q
            { maxHold := wordAt r.args 1, barTime := wordAt r.args 3, costLow := byteAt r.args 5,
              costHigh := byteAt r.args 6 } }) := if_neg (by simp [idle])

theorem ownProfile_bad (idle : s.control.phase.isIdle = true)
    (h : byteAt r.args 0 < 1 ∨ 32 < byteAt r.args 0 ∨ wordAt r.args 1 < 100 ∨ 60000 < wordAt r.args 1 ∨ 10000 < wordAt r.args 3
      ∨ byteAt r.args 5 < 1 ∨ 64 < byteAt r.args 5 ∨ byteAt r.args 6 < 1 ∨ 64 < byteAt r.args 6) :
    ownProfile r s = refuse .badArgument s := by
  rw [ownProfile_idle idle]
  split
  · rfl
  · next named =>
    have := ofNum_val named
    rw [if_pos (by omega)]

theorem ownProfile_named (idle : s.control.phase.isIdle = true) (position : byteAt r.args 0 = q.val + 1)
    (h : ¬(wordAt r.args 1 < 100 ∨ 60000 < wordAt r.args 1 ∨ 10000 < wordAt r.args 3 ∨ byteAt r.args 5 < 1
      ∨ 64 < byteAt r.args 5 ∨ byteAt r.args 6 < 1 ∨ 64 < byteAt r.args 6)) :
    ownProfile r s = done (s.setMap { s.map with
      profiles := s.map.profiles.set q
        { maxHold := wordAt r.args 1, barTime := wordAt r.args 3, costLow := byteAt r.args 5,
          costHigh := byteAt r.args 6 } }) := by
  simp only [ownProfile_idle idle, ofNum_of q position, if_neg h]

end

/-- Settles O19: each request is handed to its owner, where the phase comes first, then the ranges. -/
theorem mapRequestsWriteTheMap : Obligations.MapRequestsWriteTheMap := by
  intro r s len m b window hide profile hold bar
  have windowed : ∀ {o}, ownMapWindow r m = o → window o := fun h given => h ▸ exec_mapWindow len given
  have hidden : ∀ {o}, ownHide r m = o → hide o := fun h given => h ▸ exec_hide len given
  have profiled : ∀ {o}, ownProfile r m = o → profile o := fun h given => h ▸ exec_profile len given
  refine ⟨fun late => windowed (ownMapWindow_locked late), fun setup => ⟨fun bad => windowed (ownMapWindow_bad setup bad),
    fun low high limit => ⟨fun a named => windowed (ownMapWindow_home (s := m) setup low high limit named),
      fun named => windowed (ownMapWindow_shared (s := m) setup low high limit named)⟩⟩,
    fun bad => hidden (ownHide_bad bad), fun q named flag => hidden (ownHide_named (s := m) named flag),
    fun busy => profiled (ownProfile_locked busy), fun idle => ⟨fun bad => profiled (ownProfile_bad idle bad), ?_⟩⟩
  intro q named holdLow holdHigh barHigh lowLow lowHigh highLow highHigh
  have inRange : ¬(hold < 100 ∨ 60000 < hold ∨ 10000 < bar ∨ b 5 < 1 ∨ 64 < b 5 ∨ b 6 < 1 ∨ 64 < b 6) := by omega
  exact profiled (ownProfile_named (s := m) idle named inRange)

/-! ### PARTNER (R66, R67) -/

section
variable {r : Request} {s : State} {q lead : Position}

/-- Both commands are request 0x32. -/
theorem exec_partner (given : 2 ≤ r.args.length) (h : r.args.length ≤ 46) :
    exec (.partner r) s = .next (reply 0x32 r (ownPartner r (mgmtArrives s)))
      ∧ exec (.partnerRemove r) s = .next (reply 0x32 r (ownPartner r (mgmtArrives s))) :=
  ⟨takeRequest_taken h given, takeRequest_taken h given⟩

theorem isLead_iff {m : ArenaMap} :
    m.isLead q = true ↔ ∃ next : Position, next.val = q.val + 1 ∧ m.partners.get next = true := by
  rw [ArenaMap.isLead]
  split
  · next inside =>
    constructor
    · exact fun partner => ⟨⟨q.val + 1, inside⟩, rfl, partner⟩
    · rintro ⟨next, after, partner⟩
      have same : next = ⟨q.val + 1, inside⟩ := Fin.ext after
      rwa [← same]
  · next last =>
    constructor
    · exact fun none => absurd none Bool.false_ne_true
    · rintro ⟨next, after, _⟩
      omega

theorem ownPartner_locked (h : s.control.phase ≠ .setup) : ownPartner r s = refuse .locked s := if_pos h

/-- Position 1 has no lead, and so is refused with the positions and actions out of range. -/
theorem ownPartner_bad (setup : s.control.phase = .setup)
    (h : byteAt r.args 0 < 2 ∨ 32 < byteAt r.args 0 ∨ 1 < byteAt r.args 1) : ownPartner r s = refuse .badArgument s := by
  have first : ∀ {p : Position} {b : Bool}, ofNum 32 (byteAt r.args 0) = some p → flagOf (byteAt r.args 1) = some b →
      num p = 1 := fun position flag => by
    have := ofNum_val position
    have flagged : ¬1 < byteAt r.args 1 := fun bad => nomatch (flagOf_bad bad).symm.trans flag
    simp only [num]
    omega
  rw [ownPartner, if_neg (not_not.mpr setup)]
  split
  · next flag position => exact if_pos (first position flag)
  · next flag position => exact if_pos (first position flag)
  · rfl

theorem ownPartner_declares (setup : s.control.phase = .setup) (position : byteAt r.args 0 = q.val + 1)
    (action : byteAt r.args 1 = 1) : ownPartner r s = declarePartner q s := by
  rw [ownPartner, if_neg (not_not.mpr setup), ofNum_of q position, action]
  rfl

theorem ownPartner_removes (setup : s.control.phase = .setup) (position : byteAt r.args 0 = q.val + 1)
    (action : byteAt r.args 1 = 0) : ownPartner r s = removePartner q s := by
  rw [ownPartner, if_neg (not_not.mpr setup), ofNum_of q position, action]
  rfl

theorem num_ne_one (next : q.val = lead.val + 1) : num q ≠ 1 := by
  simp only [num]
  omega

/-- A declared partner is answered with the set as it is (R66). -/
theorem declarePartner_declared (next : q.val = lead.val + 1) (declared : s.map.partners.get q = true) :
    declarePartner q s = done s (partnerData s.map) := by
  rw [declarePartner, if_neg (num_ne_one next), ArenaMap.isPartner, if_pos declared]

/-- A position that is none yet is refused when its lead is one, when it leads itself, and when 8 are declared (R66). -/
theorem declarePartner_undeclared (next : q.val = lead.val + 1) (undeclared : ¬s.map.partners.get q = true) :
    declarePartner q s =
      if s.map.partners.get lead = true ∨ s.map.isLead q = true ∨ 8 ≤ s.map.partners.count id then refuse .badArgument s
      else
        let partners := s.map.partners.set q true
        done (s.setMap { s.map with partners }) (setBytes partners ++ [byte (partners.count id)]) := by
  rw [declarePartner, if_neg (num_ne_one next), ArenaMap.isPartner, if_neg undeclared, leadOf_eq next]
  rfl

theorem removePartner_declared (next : q.val = lead.val + 1) (declared : s.map.partners.get q = true) :
    removePartner q s =
      let partners := s.map.partners.set q false
      done (s.setMap { s.map with partners }) (setBytes partners ++ [byte (partners.count id)]) := by
  rw [removePartner, if_neg (num_ne_one next), ArenaMap.isPartner, if_pos declared]
  rfl

theorem removePartner_undeclared (next : q.val = lead.val + 1) (undeclared : ¬s.map.partners.get q = true) :
    removePartner q s = refuse .state s := by
  rw [removePartner, if_neg (num_ne_one next), ArenaMap.isPartner, if_neg undeclared]

end

/-- Settles O20: both commands are one request, whose action says whether the position is declared or removed; then R66's and
R67's checks decide. -/
theorem partnersAreDeclaredAndRemoved : Obligations.PartnersAreDeclaredAndRemoved := by
  intro r s given len m b both data
  have answered : ∀ {o}, ownPartner r m = o → both o := fun h => h ▸ exec_partner given len
  refine ⟨fun late => answered (ownPartner_locked late), fun setup => ⟨fun bad => answered (ownPartner_bad setup bad), ?_⟩⟩
  intro q lead named next declared leads apart
  have declares := fun action => ownPartner_declares (s := m) setup named action
  have removes := fun action => ownPartner_removes (s := m) setup named action
  have checks : (m.map.partners.get lead = true ∨ m.map.isLead q = true ∨ 8 ≤ m.map.partners.count id)
      ↔ ¬(apart ∧ s.map.partners.count id < 8) := by
    rw [isLead_iff, not_and_or, not_and_or, Bool.not_eq_false, not_not, Nat.not_lt, or_assoc]
    rfl
  refine ⟨fun action already => ?_, fun action fresh refused => ?_, fun action fresh free room => ?_,
    fun action fresh => ?_, fun action already => ?_⟩
  · exact answered ((declares action).trans (declarePartner_declared next already))
  · exact answered ((declares action).trans ((declarePartner_undeclared (s := m) next fresh).trans
      (if_pos (checks.mpr refused))))
  · have passed := fun h => checks.mp h ⟨free, room⟩
    exact answered ((declares action).trans ((declarePartner_undeclared (s := m) next fresh).trans (if_neg passed)))
  · exact answered ((removes action).trans (removePartner_undeclared next fresh))
  · exact answered ((removes action).trans (removePartner_declared next already))

end Sys2Proof.Machine
end

section
/-! SUPPORT. The claim table's commands: the checks of CLAIM and RELEASE one by one, the hand-over to the oldest eligible waiter,
and the expiries of holds and bars. -/

-- One theorem after the other: each elaboration task that runs beside another takes a stack from the check's memory limit.
set_option Elab.async false

namespace Sys2Proof.Machine

/-! ### What the claim table counts for a robot -/

section
variable {s : State} {n : StationId} {e : ClaimEntry}

theorem waitsAnywhere_iff : s.waitsAnywhere n = true ↔ ∃ q, (s.claim q).waits n = true := by
  simp only [State.waitsAnywhere, List.any_eq_true, Table.mem_items, exists_exists_eq_and]
  rfl

/-- The entries held, counted over the positions. -/
theorem claimCount_eq_length_filter (s : State) (n : StationId) :
    s.claimCount n = ((List.finRange 32).filter fun q => (s.claim q).heldBy n).length := by
  rw [State.claimCount, Table.count, Table.items_eq_map_get, List.countP_map, List.countP_eq_length_filter]
  rfl

/-- The place of a robot is that of the first waiter that is the robot, counted from 1 (R77). -/
theorem ClaimEntry.place_of_first {i : Nat} (here : e.waiters[i]?.any (fun w => decide (w.station = n)) = true)
    (first : ∀ j < i, e.waiters[j]?.any (fun w => decide (w.station = n)) = false) :
    e.waits n = true ∧ e.place n = i + 1 := by
  obtain ⟨w, at_, own⟩ := (Option.any_eq_true _ _).mp here
  obtain ⟨bound, rfl⟩ := List.getElem?_eq_some_iff.mp at_
  have index : (e.waiters.findIdx fun w => decide (w.station = n)) = i :=
    (List.findIdx_eq bound).mpr ⟨own, fun j before => by
      simpa [List.getElem?_eq_getElem (before.trans bound)] using first j before⟩
  exact ⟨List.any_eq_true.mpr ⟨_, List.getElem_mem bound, own⟩, congrArg (· + 1) index⟩

end

/-! ### The records that the claim table reads of a frame's station and element -/

namespace ComesToHandler
variable {s u : State} {k : RadioPort} {n : StationId} {f : Frame} {steer : Option AreaId}

theorem map_eq (h : ComesToHandler k n f s steer u) : u.map = s.map := h.keeps.1

theorem claims_eq (h : ComesToHandler k n f s steer u) : u.claims = s.claims := h.keeps.2.1

theorem claim_eq (h : ComesToHandler k n f s steer u) (q : Position) : u.claim q = s.claim q := claim_congr h.claims_eq q

theorem profile_eq (h : ComesToHandler k n f s steer u) (q : Position) : u.profile q = s.profile q := by
  rw [State.profile, h.map_eq]
  rfl

theorem node_eq (h : ComesToHandler k n f s steer u) (q : Position) : u.node q = s.node q := by
  obtain ⟨_, _, _, chain, _⟩ := h.keeps
  rw [State.node, chain]
  rfl

theorem held_eq (h : ComesToHandler k n f s steer u) : (u.station n).held = (s.station n).held := by rw [h.station]

theorem alliance_eq (h : ComesToHandler k n f s steer u) : (u.station n).alliance = (s.station n).alliance := by
  rw [h.station]

theorem decode_eq (h : ComesToHandler k n f s steer u) (q : Position) :
    u.map.decode (u.station n).alliance q = s.map.decode (s.station n).alliance q := by rw [h.map_eq, h.alliance_eq]

theorem waitsAnywhere_eq (h : ComesToHandler k n f s steer u) : u.waitsAnywhere n = s.waitsAnywhere n := by
  rw [State.waitsAnywhere, h.claims_eq]
  rfl

theorem claimCount_eq (h : ComesToHandler k n f s steer u) : u.claimCount n = s.claimCount n := by
  rw [State.claimCount, h.claims_eq]
  rfl

end ComesToHandler

/-! ### CLAIM: the checks on the element and on its entry (R75 to R77) -/

section
variable {s : State} {n : StationId} {q : Position} {f : FrameBody}

theorem handleClaim_short (short : f.payload.length < 3) : handleClaim n f s = answerClaim .claim n f 0 .malformed 0 s :=
  if_pos short

theorem handleClaim_unnamed (long : 3 ≤ f.payload.length)
    (bad : (positionByte f).toNat < 1 ∨ 32 < (positionByte f).toNat) :
    handleClaim n f s = answerClaim .claim n f (positionByte f) .malformed 0 s := by
  rw [handleClaim, if_neg (Nat.not_lt.mpr long), positionOf, ofNum_bad bad]

/-- How a CLAIM is answered at an element that is not shared (R75). -/
def DecodeClass.claimRefusal : DecodeClass → Option AnswerCode
  | .hidden => some .hidden
  | .foreign => some .foreign
  | .unmapped => some .unmapped
  | .home => some .notShared
  | .shared => none

section
variable (long : 3 ≤ f.payload.length) (named : (positionByte f).toNat = q.val + 1)
include long named

theorem handleClaim_held (held : (s.station n).held = true) :
    handleClaim n f s = answerClaim .claim n f (positionByte f) .held 0 s := by
  rw [handleClaim, if_neg (Nat.not_lt.mpr long), positionOf, ofNum_of q named]
  exact if_pos held

theorem handleClaim_refused (free : (s.station n).held = false) {code : AnswerCode}
    (refusal : (s.map.decode (s.station n).alliance q).claimRefusal = some code) :
    handleClaim n f s = answerClaim .claim n f (positionByte f) code 0 s := by
  rw [handleClaim, if_neg (Nat.not_lt.mpr long), positionOf, ofNum_of q named, free]
  dsimp only
  revert refusal
  cases s.map.decode (s.station n).alliance q <;> rintro ⟨⟩ <;> rfl

theorem handleClaim_shared (free : (s.station n).held = false)
    (shared : s.map.decode (s.station n).alliance q = .shared) :
    handleClaim n f s =
      if s.map.partners.get q = true then answerClaim .claim n f (positionByte f) .partner 0 s
      else if (s.node q).state ≠ .ready then answerClaim .claim n f (positionByte f) .nodeDown 0 s
      else judgeClaim n f q s := by
  simp only [handleClaim, if_neg (Nat.not_lt.mpr long), positionOf, ofNum_of q named, free, shared]
  rfl

end

/-- What the entry makes of a CLAIM of a robot that may take one more (R75, checks 10 to 12). -/
def newClaim (n : StationId) (f : FrameBody) (q : Position) (s : State) : State :=
  let e := s.claim q
  let say := fun code extra => answerClaim .claim n f (positionByte f) code extra
  if e.hold = none then
    if e.bar.any fun b => decide (b.alliance = (s.station n).alliance) then say .barred 0 s
    else
      let h := grantedHold (wordAt f.payload 1) (s.profile q).maxHold
      say .granted h (s.setClaim q { e with hold := some { holder := n, remaining := h } })
  else if 4 ≤ e.waiters.length then say .listFull 0 s
  else say .queued (e.waiters.length + 1)
    (s.setClaim q { e with waiters := e.waiters ++ [{ station := n, requested := wordAt f.payload 1 }] })

theorem judgeClaim_own {h : Hold} (held : (s.claim q).hold = some h) (own : h.holder = n) :
    judgeClaim n f q s = answerClaim .claim n f (positionByte f) .granted h.remaining s := by
  rw [judgeClaim, held]
  exact if_pos own

/-- Where the robot does not hold the entry, its waits and its holds are looked at before the entry (R75, checks 7 to 9). -/
theorem judgeClaim_other (other : (s.claim q).heldBy n = false) :
    judgeClaim n f q s =
      if (s.claim q).waits n = true then answerClaim .claim n f (positionByte f) .queued ((s.claim q).place n) s
      else if s.waitsAnywhere n = true then answerClaim .claim n f (positionByte f) .waiting 0 s
      else if 2 ≤ s.claimCount n then answerClaim .claim n f (positionByte f) .holdLimit 0 s
      else newClaim n f q s := by
  cases hold : (s.claim q).hold with
  | none =>
    simp only [judgeClaim, newClaim, hold, if_true]
    rfl
  | some h =>
    have apart : ¬h.holder = n := by simpa [ClaimEntry.heldBy, hold] using other
    simp only [judgeClaim, newClaim, hold, if_neg apart, reduceCtorEq, if_false]
    rfl

theorem newClaim_barred {bar : Bar} (free : (s.claim q).hold = none) (barred : (s.claim q).bar = some bar)
    (own : bar.alliance = (s.station n).alliance) :
    newClaim n f q s = answerClaim .claim n f (positionByte f) .barred 0 s := by
  rw [newClaim, if_pos free, barred]
  exact if_pos (by simpa using own)

theorem newClaim_granted (free : (s.claim q).hold = none)
    (unbarred : ∀ bar, (s.claim q).bar = some bar → bar.alliance ≠ (s.station n).alliance) :
    newClaim n f q s =
      let h := grantedHold (wordAt f.payload 1) (s.profile q).maxHold
      answerClaim .claim n f (positionByte f) .granted h
        (s.setClaim q { s.claim q with hold := some { holder := n, remaining := h } }) := by
  rw [newClaim, if_pos free]
  exact if_neg fun barred =>
    let ⟨bar, at_, own⟩ := (Option.any_eq_true _ _).mp barred
    unbarred bar at_ (of_decide_eq_true own)

theorem newClaim_listFull (held : (s.claim q).hold ≠ none) (full : 4 ≤ (s.claim q).waiters.length) :
    newClaim n f q s = answerClaim .claim n f (positionByte f) .listFull 0 s := (if_neg held).trans (if_pos full)

theorem newClaim_queued (held : (s.claim q).hold ≠ none) (room : (s.claim q).waiters.length < 4) :
    newClaim n f q s = answerClaim .claim n f (positionByte f) .queued ((s.claim q).waiters.length + 1)
      (s.setClaim q { s.claim q with
        waiters := (s.claim q).waiters ++ [{ station := n, requested := wordAt f.payload 1 }] }) :=
  (if_neg held).trans (if_neg (Nat.not_le.mpr room))

end

theorem exec_claim_of_comesToHandler {k : RadioPort} {n : StationId} {f : FrameBody} {s u : State} {steer : Option AreaId}
    (h : ComesToHandler k n { f with kind := .claim } s steer u) : exec (.claim (.rl k) f) s = .next (handleClaim n f u) :=
  arrival_of_comesToHandler h

/-- Settles O30: the checks on the element, then those on the robot's own claims, then those on the entry; each is read of the
records in s, which the frame has not changed on its way. -/
theorem claimIsGrantedQueuedOrRefused : Obligations.ClaimIsGrantedQueuedOrRefused := by
  intro k n f s u steer h b say answered
  have handled : ∀ {t}, handleClaim n f u = t → answered = .next t := fun e =>
    (exec_claim_of_comesToHandler h).trans (congrArg Host.Outcome.next e)
  refine ⟨fun short => handled (handleClaim_short short), fun long bad => handled (handleClaim_unnamed long bad), ?_⟩
  intro q long named class_ e wanted most hold elsewhere entries
  refine ⟨fun held => handled (handleClaim_held long named (h.held_eq.trans held)), fun unheld => ?_⟩
  have free := h.held_eq.trans unheld
  have refused : ∀ {code}, class_.claimRefusal = some code → answered = .next (say code b 0 u) := fun refusal =>
    handled (handleClaim_refused long named free ((congrArg _ (h.decode_eq q)).trans refusal))
  refine ⟨fun c => refused (c ▸ rfl), fun c => refused (c ▸ rfl), fun c => refused (c ▸ rfl), fun c => refused (c ▸ rfl),
    fun shared => ?_⟩
  have checked := handleClaim_shared long named free ((h.decode_eq q).trans shared)
  rw [h.map_eq, h.node_eq] at checked
  refine ⟨fun partner => handled (checked.trans (if_pos partner)), fun ordinary => ?_⟩
  rw [if_neg (Bool.eq_false_iff.mp ordinary)] at checked
  refine ⟨fun down => handled (checked.trans (if_pos down)), fun ready => ?_⟩
  rw [if_neg (not_not.mpr ready)] at checked
  have entry : u.claim q = e := h.claim_eq q
  refine ⟨fun x held own => handled (checked.trans (judgeClaim_own (entry ▸ held) own)), fun other => ?_⟩
  have judged := checked.trans (judgeClaim_other (entry ▸ other))
  rw [h.waitsAnywhere_eq, h.claimCount_eq, claimCount_eq_length_filter, entry] at judged
  refine ⟨fun i here first => ?_, fun absent => ?_⟩
  · obtain ⟨listed, place⟩ := ClaimEntry.place_of_first here first
    rw [if_pos listed, place] at judged
    exact handled judged
  rw [if_neg (Bool.eq_false_iff.mp absent)] at judged
  refine ⟨fun waiting => handled (judged.trans (if_pos (waitsAnywhere_iff.mpr waiting))), fun nowhere two => ?_,
    fun nowhere room => ?_⟩ <;> rw [if_neg (mt waitsAnywhere_iff.mp nowhere)] at judged
  · exact handled (judged.trans (if_pos two))
  rw [if_neg (Nat.not_le.mpr room)] at judged
  refine ⟨fun bar vacant barred own => ?_, fun vacant unbarred => ?_, fun held full => ?_, fun held short => ?_⟩
  · exact handled (judged.trans (newClaim_barred (entry ▸ vacant) (entry ▸ barred) (own.trans h.alliance_eq.symm)))
  · have granted := newClaim_granted (n := n) (f := f) (entry ▸ vacant) (by rw [entry, h.alliance_eq]; exact unbarred)
    rw [entry, h.profile_eq] at granted
    exact handled (judged.trans granted)
  · exact handled (judged.trans (newClaim_listFull (entry ▸ held) (entry ▸ full)))
  · have queued := newClaim_queued (n := n) (f := f) (entry ▸ held) (entry ▸ short)
    rw [entry] at queued
    exact handled (judged.trans queued)

/-! ### The bar of an entry given back, and RELEASE (R80, R81, R85) -/

/-- The bar is set by the profile of the position and the alliance of the holder's record, and not by what else the state
holds. -/
theorem barredEntry_congr {s t : State} {m : StationId} (map : t.map = s.map)
    (alliance : (t.station m).alliance = (s.station m).alliance) (q : Position) :
    barredEntry t q m = { t.claim q with
      hold := none
      bar := if (s.profile q).barTime = 0 then none
        else some { alliance := (s.station m).alliance, remaining := (s.profile q).barTime } } := by
  rw [barredEntry, State.profile, map, alliance]
  rfl

section
variable {s : State} {n : StationId} {q : Position} {f : FrameBody}

theorem handleRelease_empty (empty : f.payload = []) :
    handleRelease n f s = answerClaim .release n f 0 .malformed 0 s := if_pos (by simp [empty])

theorem handleRelease_unnamed (given : f.payload ≠ [])
    (bad : (positionByte f).toNat < 1 ∨ 32 < (positionByte f).toNat) :
    handleRelease n f s = answerClaim .release n f (positionByte f) .malformed 0 s := by
  rw [handleRelease, if_neg (Nat.not_lt.mpr (List.length_pos_iff.mpr given)), positionOf, ofNum_bad bad]

/-- With a position named, what is left is whether the entry is a partner's, and what the robot is to it. -/
theorem handleRelease_named (given : f.payload ≠ []) (named : (positionByte f).toNat = q.val + 1) :
    handleRelease n f s =
      if s.map.partners.get q = true then answerClaim .release n f (positionByte f) .notHolder 0 s
      else if (s.claim q).heldBy n = true then
        handOver q (answerClaim .release n f (positionByte f) .released 0 (s.setClaim q (barredEntry s q n)))
      else if (s.claim q).waits n = true then
        answerClaim .release n f (positionByte f) .withdrawn 0 (s.setClaim q ((s.claim q).unlisted n))
      else answerClaim .release n f (positionByte f) .notHolder 0 s := by
  rw [handleRelease, if_neg (Nat.not_lt.mpr (List.length_pos_iff.mpr given)), positionOf, ofNum_of q named]
  rfl

end

theorem exec_release_of_comesToHandler {k : RadioPort} {n : StationId} {f : FrameBody} {s u : State}
    {steer : Option AreaId} (h : ComesToHandler k n { f with kind := .release } s steer u) :
    exec (.release (.rl k) f) s = .next (handleRelease n f u) := arrival_of_comesToHandler h

/-- Settles O31: the checks on the position, and then what the robot is to the entry. -/
theorem releaseGivesBackOrWithdraws : Obligations.ReleaseGivesBackOrWithdraws := by
  intro k n f s u steer h b say answered
  have handled : ∀ {t}, handleRelease n f u = t → answered = .next t := fun e =>
    (exec_release_of_comesToHandler h).trans (congrArg Host.Outcome.next e)
  refine ⟨fun empty => handled (handleRelease_empty empty), fun given bad => handled (handleRelease_unnamed given bad), ?_⟩
  intro q given named e t
  have judged := handleRelease_named (n := n) (s := u) given named
  rw [barredEntry_congr h.map_eq h.alliance_eq, h.map_eq, h.claim_eq] at judged
  refine ⟨fun partner => handled (judged.trans (if_pos partner)), fun ordinary => ?_⟩
  rw [if_neg (Bool.eq_false_iff.mp ordinary)] at judged
  refine ⟨fun held => handled (judged.trans (if_pos held)), fun other listed => ?_, fun other absent => ?_⟩ <;>
    rw [if_neg (Bool.eq_false_iff.mp other)] at judged
  · exact handled (judged.trans (if_pos listed))
  · exact handled (judged.trans (if_neg (Bool.eq_false_iff.mp absent)))

/-! ### The hand-over and the expiries (R83, R85 to R87, R91) -/

section
variable {s : State} {q : Position}

/-- The hand-over grants the entry to its oldest eligible waiter and tells it so (R87, R88). -/
theorem handOver_some {before after : List Waiter} {w : Waiter} (list : (s.claim q).waiters = before ++ w :: after)
    (eligible : s.eligible (s.claim q) w = true) (barred : ∀ v ∈ before, s.eligible (s.claim q) v = false) :
    handOver q s =
      let h := grantedHold w.requested (s.profile q).maxHold
      answer w.station (claimNotice .grantedLater q h) (s.setClaim q { s.claim q with
        hold := some { holder := w.station, remaining := h }
        waiters := before ++ after }) := by
  have first : (s.claim q).waiters.find? (s.eligible (s.claim q)) = some w :=
    List.find?_eq_some_iff_append.mpr ⟨eligible, before, after, list, fun v mem => by simp [barred v mem]⟩
  have entry := handedOver_some (q := q) list eligible barred
  rw [State.handedOver, first] at entry
  rw [handOver, first]
  exact congrArg (fun e => answer w.station _ (s.setClaim q e)) entry

theorem holdExpired_held {h : Hold} (held : (s.claim q).hold = some h) :
    holdExpired q s =
      handOver q (answer h.holder (claimNotice .expired q 0) (s.setClaim q (barredEntry s q h.holder))) := by
  rw [holdExpired, held]

theorem elapse_alliance (k : Nat) (s : State) (m : StationId) :
    ((elapse k s).station m).alliance = (s.station m).alliance := by rw [elapse_station]

/-- Time ends no hold: its expiry does. -/
theorem elapse_hold_eq_none_iff (k : Nat) : ((elapse k s).claim q).hold = none ↔ (s.claim q).hold = none := by
  obtain ⟨hold, bar, counted, holder, -⟩ := elapse_claim k s q
  rw [counted, ← Option.map_eq_none_iff (f := Hold.holder), holder, Option.map_eq_none_iff]

theorem exec_holdExpiry_running {h : Hold} (running : s.control.phase.isRunning = true)
    (held : (s.claim q).hold = some h) : exec (.holdExpiry q) s = .next (holdExpired q (elapse h.remaining s)) := by
  change execHoldExpiry q s = _
  rw [execHoldExpiry, running, held]

theorem exec_holdExpiry_idle (idle : s.control.phase.isRunning = false ∨ (s.claim q).hold = none) :
    exec (.holdExpiry q) s = .next s := by
  change execHoldExpiry q s = _
  rw [execHoldExpiry]
  split
  · next running held => simp [running, held] at idle
  · rfl

theorem exec_barExpiry_running {bar : Bar} (running : s.control.phase.isRunning = true)
    (barred : (s.claim q).bar = some bar) : exec (.barExpiry q) s = .next (barExpired q (elapse bar.remaining s)) := by
  change execBarExpiry q s = _
  rw [execBarExpiry, running, barred]

theorem exec_barExpiry_idle (idle : s.control.phase.isRunning = false ∨ (s.claim q).bar = none) :
    exec (.barExpiry q) s = .next s := by
  change execBarExpiry q s = _
  rw [execBarExpiry]
  split
  · next running barred => simp [running, barred] at idle
  · rfl

end

/-- Settles O32: the hand-over by its oldest eligible waiter; the expiries take effect after the time left on their timer. -/
theorem holdsAndBarsExpireAndEntriesAreHandedOver : Obligations.HoldsAndBarsExpireAndEntriesAreHandedOver := by
  refine ⟨fun q s => ?_, fun q s => ⟨fun h held running => ?_, fun bar barred running => ?_, exec_holdExpiry_idle,
    exec_barExpiry_idle⟩⟩
  · intro e most eligible
    have ineligible : ∀ w, ¬eligible w → s.eligible e w = false := fun w no => Bool.eq_false_iff.mpr (mt eligible_iff.mp no)
    refine ⟨fun none_ => handOver_none (List.find?_eq_none.mpr fun w mem => by simp [e, ineligible w (none_ w mem)]), ?_⟩
    exact fun before after w list may barred =>
      handOver_some list (eligible_iff.mpr may) fun v mem => ineligible v (barred v mem)
  · intro u t
    have later : (u.claim q).hold = some { h with remaining := h.remaining - h.remaining } := by
      rw [elapse_claim_of_running h.remaining running, held]
      rfl
    rw [exec_holdExpiry_running running held, holdExpired_held later,
      barredEntry_congr (elapse_map s h.remaining) (elapse_alliance h.remaining s h.holder)]
    rfl
  · intro u cleared
    rw [exec_barExpiry_running running barred]
    exact congrArg Host.Outcome.next (if_congr (elapse_hold_eq_none_iff bar.remaining) rfl rfl)

end Sys2Proof.Machine
end

section
/-! SUPPORT. The ELEMENT handler: the checks on the element one by one, then the balance, the area and the store; and the
credit unit's request and tick. -/

-- One theorem after the other: each elaboration task that runs beside another takes a stack from the check's memory limit.
set_option Elab.async false

namespace Sys2Proof.Machine

/-! ### ELEMENT: the checks on the element (R98, checks 1 to 6) -/

section
variable {s : State} {n : StationId} {q : Position} {f : Frame} {steer : Option AreaId}

theorem handleElement_short (short : f.payload.length < 4) :
    handleElement n f steer s = refuseElement n f.toFrameBody 0 .malformed 0 s := if_pos short

theorem handleElement_unnamed (long : 4 ≤ f.payload.length)
    (bad : (positionByte f.toFrameBody).toNat < 1 ∨ 32 < (positionByte f.toFrameBody).toNat) :
    handleElement n f steer s = refuseElement n f.toFrameBody (positionByte f.toFrameBody) .malformed 0 s := by
  rw [handleElement, if_neg (Nat.not_lt.mpr long), positionOf, ofNum_bad bad]

/-- How an ELEMENT frame is answered at an element that its robot may not move (R98, check 4). -/
def DecodeClass.elementRefusal : DecodeClass → Option AnswerCode
  | .hidden => some .hidden
  | .foreign => some .foreign
  | .unmapped => some .unmapped
  | .home | .shared => none

section
variable (long : 4 ≤ f.payload.length) (named : (positionByte f.toFrameBody).toNat = q.val + 1)
include long named

theorem handleElement_held (held : (s.station n).held = true) :
    handleElement n f steer s = refuseElement n f.toFrameBody (positionByte f.toFrameBody) .held 0 s := by
  rw [handleElement, if_neg (Nat.not_lt.mpr long), positionOf, ofNum_of q named]
  exact if_pos held

theorem handleElement_refused (free : (s.station n).held = false) {code : AnswerCode}
    (refusal : (s.map.decode (s.station n).alliance q).elementRefusal = some code) :
    handleElement n f steer s = refuseElement n f.toFrameBody (positionByte f.toFrameBody) code 0 s := by
  rw [handleElement, if_neg (Nat.not_lt.mpr long), positionOf, ofNum_of q named, free]
  dsimp only
  revert refusal
  cases s.map.decode (s.station n).alliance q <;> rintro ⟨⟩ <;> rfl

/-- At an element of the robot's own alliance or a shared one the node decides, and at a shared one the claim. -/
theorem handleElement_allowed (free : (s.station n).held = false)
    (allowed : s.map.decode (s.station n).alliance q = .home ∨ s.map.decode (s.station n).alliance q = .shared) :
    handleElement n f steer s =
      admitCommand n f q (decide (s.map.decode (s.station n).alliance q = .shared)) steer s := by
  rw [handleElement, if_neg (Nat.not_lt.mpr long), positionOf, ofNum_of q named, free]
  dsimp only
  rcases allowed with class_ | class_ <;> rw [class_] <;> rfl

end

theorem admitCommand_down {shared : Bool} (down : (s.node q).state ≠ .ready) :
    admitCommand n f q shared steer s = refuseElement n f.toFrameBody (positionByte f.toFrameBody) .nodeDown 0 s :=
  if_pos down

section
variable {shared : Bool} (ready : (s.node q).state = .ready)
include ready

theorem admitCommand_unheld (claimed : ¬(shared = true → (s.claim (s.map.effective q)).heldBy n = true)) :
    admitCommand n f q shared steer s = refuseElement n f.toFrameBody (positionByte f.toFrameBody) .notHolder 0 s := by
  obtain ⟨rfl, other⟩ := Classical.not_imp.mp claimed
  rw [admitCommand, if_neg (not_not.mpr ready)]
  exact if_pos (by simp [other])

theorem admitCommand_passed (claimed : shared = true → (s.claim (s.map.effective q)).heldBy n = true) :
    admitCommand n f q shared steer s = chargeAndStore n f q steer s := by
  rw [admitCommand, if_neg (not_not.mpr ready)]
  exact if_neg (by simpa using claimed)

end

/-! ### ELEMENT: the balance and the area (R98, checks 7 to 9; R99) -/

theorem chargeAndStore_slow (poor : s.balance n < (s.profile q).cost (f.payload.getD 1 0)) :
    chargeAndStore n f q steer s =
      refuseElement n f.toFrameBody (positionByte f.toFrameBody) .slow (s.balance n) s := if_pos poor

section
variable (rich : (s.profile q).cost (f.payload.getD 1 0) ≤ s.balance n)
include rich

theorem chargeAndStore_unjoined (unjoined : s.chooseArea .chain .normal steer = none) :
    chargeAndStore n f q steer s = refuseElement n f.toFrameBody (positionByte f.toFrameBody) .busy 0 s := by
  rw [chargeAndStore, if_neg (Nat.not_lt.mpr rich), unjoined]

theorem chargeAndStore_full {a : AreaId} (chosen : s.chooseArea .chain .normal steer = some a)
    (full : (s.area a).full = true) :
    chargeAndStore n f q steer s = refuseElement n f.toFrameBody (positionByte f.toFrameBody) .busy 0 (dropAt a s) := by
  rw [chargeAndStore, if_neg (Nat.not_lt.mpr rich), chosen]
  exact if_pos full

theorem chargeAndStore_stored {a : AreaId} (chosen : s.chooseArea .chain .normal steer = some a)
    (room : (s.area a).full = false) :
    chargeAndStore n f q steer s =
      (s.setBalance n (s.balance n - (s.profile q).cost (f.payload.getD 1 0))).setArea a ((s.area a).store f) := by
  rw [chargeAndStore, if_neg (Nat.not_lt.mpr rich), chosen]
  exact if_neg (Bool.eq_false_iff.mp room)

end

end

theorem exec_element_of_comesToHandler {k : RadioPort} {n : StationId} {f : FrameBody} {s u : State} {steer : Option AreaId}
    (h : ComesToHandler k n { f with kind := .element } s steer u) :
    exec (.element (.rl k) f) s = .next (handleElement n { f with kind := .element } steer u) :=
  arrival_of_comesToHandler h

theorem ComesToHandler.balance_eq {s u : State} {k : RadioPort} {n : StationId} {f : Frame} {steer : Option AreaId}
    (h : ComesToHandler k n f s steer u) (m : StationId) : u.balance m = s.balance m := by
  obtain ⟨_, _, credit, _⟩ := h.keeps
  rw [State.balance, credit]
  rfl

/-- Settles O29: the checks on the element, then the node and the claim, then the balance and the area; each but the last is
read of the records in s, which the frame has not changed on its way. -/
theorem elementIsAdmittedOrRefused : Obligations.ElementIsAdmittedOrRefused := by
  intro k n f s u steer h b say answered
  have handled : ∀ {t}, handleElement n { f with kind := .element } steer u = t → answered = .next t := fun e =>
    (exec_element_of_comesToHandler h).trans (congrArg Host.Outcome.next e)
  refine ⟨fun short => handled (handleElement_short short), fun long bad => handled (handleElement_unnamed long bad), ?_⟩
  intro q long named class_ cost holds
  refine ⟨fun held => handled (handleElement_held long named (h.held_eq.trans held)), fun unheld => ?_⟩
  have free := h.held_eq.trans unheld
  have refused : ∀ {code}, class_.elementRefusal = some code → answered = .next (say code b 0 u) := fun refusal =>
    handled (handleElement_refused (f := { f with kind := .element }) long named free
      ((congrArg _ (h.decode_eq q)).trans refusal))
  refine ⟨fun c => refused (c ▸ rfl), fun c => refused (c ▸ rfl), fun c => refused (c ▸ rfl), fun allowed => ?_⟩
  have checked := handleElement_allowed (f := { f with kind := .element }) (steer := steer) long named free
    (by rw [h.decode_eq]; exact allowed)
  have claimed : ((decide (u.map.decode (u.station n).alliance q = .shared)) = true →
      (u.claim (u.map.effective q)).heldBy n = true) ↔ holds := by
    rw [decide_eq_true_eq, h.decode_eq, h.claim_eq, h.map_eq]
  have node := h.node_eq q
  refine ⟨fun down => handled (checked.trans (admitCommand_down (node ▸ down))), fun ready other => ?_,
    fun ready own => ?_⟩
  · exact handled (checked.trans (admitCommand_unheld (node ▸ ready) (mt claimed.mp other)))
  have charged := checked.trans (admitCommand_passed (node ▸ ready) (claimed.mpr own))
  have price : (u.profile q).cost (f.payload.getD 1 0) = cost := by
    rw [h.profile_eq]
    rfl
  have balance := h.balance_eq n
  refine ⟨fun poor => ?_, fun rich => ?_⟩
  · rw [← balance, ← price] at poor
    rw [← balance]
    exact handled (charged.trans (chargeAndStore_slow poor))
  rw [← balance, ← price] at rich ⊢
  refine ⟨fun unjoined => handled (charged.trans (chargeAndStore_unjoined rich unjoined)), fun a chosen => ⟨?_, ?_⟩⟩
  · exact fun full => handled (charged.trans (chargeAndStore_full rich chosen full))
  · exact fun room => handled (charged.trans (chargeAndStore_stored rich chosen room))

/-! ### The credit unit (R102, R105, R160) -/

section
variable {r : Request} {s : State}

theorem exec_creditParams (h : r.args.length ≤ 46) (given : 2 ≤ r.args.length) :
    exec (.creditParams r) s = .next (reply 0x3C r (ownCreditParams r (mgmtArrives s))) := takeRequest_taken h given

theorem ownCreditParams_locked (h : s.control.phase.isIdle = false) : ownCreditParams r s = refuse .locked s := by
  rw [ownCreditParams, h]
  rfl

section
variable (idle : s.control.phase.isIdle = true)
include idle

theorem ownCreditParams_bad
    (bad : byteAt r.args 0 < 1 ∨ 64 < byteAt r.args 0 ∨ byteAt r.args 1 < 1 ∨ 15 < byteAt r.args 1) :
    ownCreditParams r s = refuse .badArgument s := by
  rw [ownCreditParams, idle]
  exact if_pos bad

theorem ownCreditParams_set (rateLow : 1 ≤ byteAt r.args 0) (rateHigh : byteAt r.args 0 ≤ 64)
    (burstLow : 1 ≤ byteAt r.args 1) (burstHigh : byteAt r.args 1 ≤ 15) :
    ownCreditParams r s =
      done { s with credit := { rate := byteAt r.args 0, burst := byteAt r.args 1
                                balances := .fill 32 (16 * byteAt r.args 1) } } [byte (16 * byteAt r.args 1)] := by
  have good : ¬(byteAt r.args 0 < 1 ∨ 64 < byteAt r.args 0 ∨ byteAt r.args 1 < 1 ∨ 15 < byteAt r.args 1) := by omega
  rw [ownCreditParams, idle]
  exact if_neg good

end

/-- No tick falls within the rest of the accumulator's 10 ms: the one at its end is still to be taken
(notes/assumptions/25.md). -/
theorem PhaseControl.ticksWithin_rest (c : PhaseControl) : c.ticksWithin (Config.tickLength - c.accumulator) = 0 := by
  simp only [PhaseControl.ticksWithin, Config.tickLength]
  omega

theorem exec_creditTick_running (h : s.control.phase.isRunning = true) :
    exec .creditTick s = .next (tickFalls (elapse (Config.tickLength - s.control.accumulator) s)) := if_pos h

theorem exec_creditTick_still (h : s.control.phase.isRunning = false) : exec .creditTick s = .next s :=
  if_neg (Bool.eq_false_iff.mp h)

/-- A credit tick is the one refill of the credit accounts as they stood before the time it lets pass (R102). -/
theorem tickFalls_credit_eq (h : s.control.phase.isRunning = true) :
    (tickFalls (elapse (Config.tickLength - s.control.accumulator) s)).credit = s.credit.tick := by
  change (elapse _ s).credit.tick = _
  rw [elapse_credit_of_running _ h, PhaseControl.ticksWithin_rest, Credit.ticks_zero]

end

/-- Settles O33: the request by its checks; the tick as one refill after the time that it lets pass. -/
theorem creditIsSetAndRefilled : Obligations.CreditIsSetAndRefilled := by
  intro r s given len m rate burst params
  have answered : ∀ {o}, ownCreditParams r m = o → params o := fun h => h ▸ exec_creditParams len given
  refine ⟨fun busy => answered (ownCreditParams_locked busy), fun idle bad => answered (ownCreditParams_bad idle bad),
    fun idle rateLow rateHigh burstLow burstHigh =>
      answered (ownCreditParams_set idle rateLow rateHigh burstLow burstHigh),
    fun running => ⟨_, exec_creditTick_running running, fun n => ?_, ?_, ?_, rfl⟩, exec_creditTick_still⟩
  · rw [State.balance, tickFalls_credit_eq running]
    exact Table.get_map ..
  all_goals
    rw [tickFalls_credit_eq running]
    rfl

end Sys2Proof.Machine
end

section
/-! SUPPORT. Transactions: the tag that a command is sent under, ELEMENT_DIRECT and the pending send, the dequeue and its
recheck, and the end of a transaction by a REPLY or a timeout. -/

-- One theorem after the other: each elaboration task that runs beside another takes a stack from the check's memory limit.
set_option Elab.async false

namespace Sys2Proof.Machine

variable {s : State}

/-! ### The lowest free tag (R107, R146) -/

/-- Tag t is free, and no lower one is. -/
def State.LowestFree (s : State) (t : TagId) : Prop := s.tag t = none ∧ ∀ j, j < t → s.tag j ≠ none

theorem freeTag_eq_some {t : TagId} (h : s.LowestFree t) : s.freeTag = some t := by
  obtain ⟨free, lower⟩ := h
  exact find?_finRange_eq_some (Option.isNone_iff_eq_none.mpr free) fun j lt =>
    mt Option.isNone_iff_eq_none.mp (lower j lt)

theorem freeTag_eq_none (h : ∀ t, s.tag t ≠ none) : s.freeTag = none :=
  find?_finRange_eq_none fun t => mt Option.isNone_iff_eq_none.mp (h t)

/-! ### ELEMENT_DIRECT (R146) -/

section
variable {r : Request} {q : Position}

theorem exec_elementDirect (h : r.args.length ≤ 46) (given : 4 ≤ r.args.length) :
    exec (.elementDirect r) s = .next (reply 0x52 r (ownElementDirect r (mgmtArrives s))) := takeRequest_taken h given

theorem ownElementDirect_bad (bad : byteAt r.args 0 < 1 ∨ 32 < byteAt r.args 0) :
    ownElementDirect r s = refuse .badArgument s := by
  rw [ownElementDirect, ofNum_bad bad]

section
variable (named : byteAt r.args 0 = q.val + 1)
include named

theorem ownElementDirect_census (census : s.chain.census ≠ none) : ownElementDirect r s = refuse .busy s := by
  rw [ownElementDirect, ofNum_of q named]
  exact if_pos census

theorem ownElementDirect_sent (still : s.chain.census = none) {t : TagId} (free : s.freeTag = some t) :
    ownElementDirect r s = accepted (sendCommand t q (.direct r.tag) (r.args.getD 1 0)
      (word16 (r.args.getD 2 0) (r.args.getD 3 0)) s) := by
  simp only [ownElementDirect, ofNum_of q named, still, free, ne_eq, not_true_eq_false, if_false]

/-- Without a free tag the slot takes the command, or refuses it. -/
theorem ownElementDirect_tagless (still : s.chain.census = none) (taken : s.freeTag = none) :
    ownElementDirect r s =
      if s.chain.slot = none then
        accepted (s.setSlot (some { requestTag := r.tag, position := q, function := r.args.getD 1 0
                                    value := word16 (r.args.getD 2 0) (r.args.getD 3 0) }))
      else refuse .busy s := by
  simp only [ownElementDirect, ofNum_of q named, still, taken, ne_eq, not_true_eq_false, if_false]

end

end

/-! ### The pending send (R147) -/

theorem exec_pendingSend (s : State) : exec .pendingSend s = .next (sendPending s) := rfl

theorem sendPending_ready {d : DirectCommand} {t : TagId} (slot : s.chain.slot = some d) (still : s.chain.census = none)
    (free : s.freeTag = some t) :
    sendPending s = sendCommand t d.position (.direct d.requestTag) d.function d.value (s.setSlot none) := by
  have ready : s.pendingReady = some (t, d) := by rw [State.pendingReady, if_pos still, free, slot]
  rw [sendPending, ready]

theorem sendPending_unready (h : s.chain.slot = none ∨ s.chain.census ≠ none ∨ ∀ t, s.tag t ≠ none) :
    sendPending s = s := by
  have unready : s.pendingReady = none := by
    rw [← Option.not_isSome_iff_eq_none, isSome_pendingReady_iff]
    rintro ⟨slot, still, t, free⟩
    rcases h with empty | census | taken
    · exact slot empty
    · exact census still
    · exact taken t free
  rw [sendPending, unready]

/-- Settles O39: the checks of ELEMENT_DIRECT in order, then the tag or the slot; the pending send by its conditions. -/
theorem directCommandsTakeATagOrWait : Obligations.DirectCommandsTakeATagOrWait := by
  intro r s given len m direct sent lowest function value
  have answered : ∀ {o}, ownElementDirect r m = o → direct o := fun h => h ▸ exec_elementDirect len given
  refine ⟨fun bad => answered (ownElementDirect_bad bad), fun q named => ⟨?_, fun still => ⟨fun t free => ?_, ?_⟩⟩,
    fun d t slot still free => ?_, fun unready => ?_⟩
  · exact fun census => answered (ownElementDirect_census named census)
  · exact answered (ownElementDirect_sent (s := m) named still (freeTag_eq_some (s := m) free))
  · intro taken
    have tagless := ownElementDirect_tagless named (s := m) still (freeTag_eq_none (s := m) taken)
    exact ⟨fun empty => answered (tagless.trans (if_pos empty)),
      fun waiting => answered (tagless.trans (if_neg waiting))⟩
  · rw [exec_pendingSend, sendPending_ready slot still (freeTag_eq_some free)]
    rfl
  · rw [exec_pendingSend, sendPending_unready unready]

/-! ### The recheck (R108) -/

theorem Phase.isCommand_eq_true_iff {phase : Phase} : phase.isCommand = true ↔
    phase = .running .auto ∨ phase = .running .driver ∨ phase = .running .endgame := by
  cases phase with
  | running r => cases r <;> simp [Phase.isCommand]
  | _ => simp [Phase.isCommand]

/-- The checks of the recheck, in order. -/
theorem recheck_eq (s : State) (n : StationId) (q : Position) :
    s.recheck n q =
      if s.control.phase ≠ .running .auto ∧ s.control.phase ≠ .running .driver ∧ s.control.phase ≠ .running .endgame then
        some .phase
      else if s.map.hidden q then some .hidden
      else if (s.node q).state ≠ .ready then some .nodeDown
      else if s.map.decode (s.station n).alliance q = .shared ∧ (s.claim (s.map.effective q)).heldBy n = false then
        some .notHolder
      else none := by
  have phase : (!s.control.phase.isCommand) = true ↔ s.control.phase ≠ .running .auto
      ∧ s.control.phase ≠ .running .driver ∧ s.control.phase ≠ .running .endgame := by
    rw [Bool.not_eq_true', ← Bool.not_eq_true, Phase.isCommand_eq_true_iff, not_or, not_or]
  simp only [State.recheck, phase, Bool.not_eq_true']

section
variable {t : TagId} {n : StationId} {q : Position} {f : Frame} (source : f.source.toNat = n.val + 1)
  (named : (positionByte f.toFrameBody).toNat = q.val + 1)
include source named

theorem recheckAndSend_refused {code : AnswerCode} (h : s.recheck n q = some code) :
    recheckAndSend t f s = answer n (elementAnswer code f.sequence (positionByte f.toFrameBody) 0) s := by
  simp only [recheckAndSend, stationOf_eq_some source, positionOf, ofNum_of q named, h]

theorem recheckAndSend_sent (h : s.recheck n q = none) :
    recheckAndSend t f s = sendCommand t q (.robot (some n) f.sequence) (f.payload.getD 1 0)
      (word16 (f.payload.getD 2 0) (f.payload.getD 3 0)) s := by
  simp only [recheckAndSend, stationOf_eq_some source, positionOf, ofNum_of q named, h]

end

/-! ### The dequeue (R107) -/

theorem exec_dequeue (s : State) : exec .dequeue s = .next (dequeueOne s) := rfl

theorem dequeueOne_ready {t : TagId} {l : Lane} {a : AreaId} {f : Frame} {rest : List Frame}
    (ready : s.chain.halted = false ∧ s.chain.census = none ∧ s.chain.slot = none) (free : s.LowestFree t)
    (filled : s.Filled .chain l a) (first : ∀ l' b, l'.code < l.code → ¬s.Filled .chain l' b)
    (frames : (s.area a).frames = f :: rest) :
    dequeueOne s = recheckAndSend t f (s.setArea a { s.area a with frames := rest }) := by
  have due : s.dequeueReady = some (t, a) := by
    rw [State.dequeueReady, if_pos ready, freeTag_eq_some free, nextArea_eq_some filled first]
  simp only [dequeueOne, due, popFrame, frames, List.head?_cons, List.tail_cons]

theorem dequeueOne_unready (h : ¬(s.chain.halted = false ∧ s.chain.census = none ∧ s.chain.slot = none)
      ∨ (∀ t, s.tag t ≠ none) ∨ ∀ l a, ¬s.Filled .chain l a) : dequeueOne s = s := by
  have undue : s.dequeueReady = none := by
    rw [← Option.not_isSome_iff_eq_none, isSome_dequeueReady_iff]
    rintro ⟨running, still, slot, ⟨t, free⟩, l, a, filled⟩
    rcases h with unready | taken | empty
    · exact unready ⟨running, still, slot⟩
    · exact taken t free
    · exact empty l a filled
  rw [dequeueOne, undue]

/-- Settles O40: the dequeue takes the head of its area by the conditions of R107; what becomes of the command follows the
checks of the recheck, read of the records in s, which the dequeue leaves as they were. -/
theorem dequeueRechecksAndSends : Obligations.DequeueRechecksAndSends := by
  intro s filled ready
  refine ⟨fun t l a f rest n q due free here first frames source named => ?_, fun undue => ?_⟩
  · intro u say sentOn
    rw [exec_dequeue, dequeueOne_ready due free here first frames]
    refine congrArg Host.Outcome.next ?_
    have checks : u.recheck n q = _ := recheck_eq s n q
    have refused : ∀ {code}, u.recheck n q = some code → recheckAndSend t f u = say code :=
      recheckAndSend_refused source named
    split_ifs at checks ⊢
    any_goals exact refused checks
    exact recheckAndSend_sent source named checks
  · rw [exec_dequeue, dequeueOne_unready undue]

/-! ### The end of a transaction (R112, R114, R148) -/

/-- The outcome of a transaction goes to the robot that its record still holds, or in a DIRECT_DONE report. -/
def TagRecord.tell (x : TagRecord) (outcome : AnswerCode) (value : BitVec 16) (s : State) : State :=
  match x.origin with
  | .robot (some n) sequence => answer n (elementAnswer outcome sequence (byte (num x.position)) value) s
  | .robot none _ => s
  | .direct tag => laterResult .directDone tag ([byte outcome.code, byte (num x.position)] ++ bytes16 value) s

theorem endTransaction_eq {t : TagId} {x : TagRecord} (h : s.tag t = some x) (outcome : AnswerCode) (value : BitVec 16) :
    endTransaction t outcome value s = x.tell outcome value (s.setTag t none) := by
  rw [endTransaction, h]
  rfl

theorem hear_tag (q : Position) (s : State) (t : TagId) : (hear q s).tag t = s.tag t := by
  rw [State.tag, hear_chain_tags]
  rfl

/-! ### REPLY (R112, R113, R136) -/

section
variable {q : Position} {tag status : Byte} {value : BitVec 16}

theorem exec_reply {e : ChainEnd} {position : Byte} (place : position.toNat = q.val + 1) (known : status.toNat ≤ 2) :
    exec (.reply e position tag status value) s = .next (takeReply q tag status value s) := by
  change execReply e position tag status value s = _
  rw [execReply, positionOf, ofNum_of q place]
  exact if_neg (Nat.not_lt.mpr known)

/-- An ABSENT position's REPLY does nothing, whatever its status. -/
theorem exec_reply_absent {e : ChainEnd} {position : Byte} (place : position.toNat = q.val + 1)
    (absent : (s.node q).state = .absent) : exec (.reply e position tag status value) s = .next s := by
  rcases Nat.lt_or_ge 2 status.toNat with bad | known
  · change execReply e position tag status value s = _
    rw [execReply, positionOf, ofNum_of q place]
    exact if_pos bad
  · rw [exec_reply place known, takeReply, if_pos absent]

theorem replyMatch_eq_some {t : TagId} {x : TagRecord} (h : s.tag t = some x) (tagged : tag.toNat = t.val) :
    s.replyMatch x.position tag = some t := by
  simp [State.replyMatch, ofIndex_of t tagged, h]

theorem replyMatch_eq_none (h : ∀ t : TagId, tag.toNat = t.val → ∀ x, s.tag t = some x → x.position ≠ q) :
    s.replyMatch q tag = none := by
  rw [State.replyMatch, Option.filter_eq_none_iff]
  intro t found any
  obtain ⟨x, at_, place⟩ := (Option.any_eq_true _ _).mp any
  exact h t (ofIndex_val found) x at_ (of_decide_eq_true place)

theorem takeReply_matched {t : TagId} {x : TagRecord} (h : s.tag t = some x) (tagged : tag.toNat = t.val)
    (present : (s.node x.position).state ≠ .absent) :
    takeReply x.position tag status value s =
      x.tell (replyOutcome status value).1 (replyOutcome status value).2 ((hear x.position s).setTag t none) := by
  rw [takeReply, if_neg present, replyMatch_eq_some h tagged]
  exact endTransaction_eq ((hear_tag x.position s t).trans h) _ _

theorem takeReply_unmatched (present : (s.node q).state ≠ .absent)
    (h : ∀ t : TagId, tag.toNat = t.val → ∀ x, s.tag t = some x → x.position ≠ q) :
    takeReply q tag status value s = hear q s := by
  rw [takeReply, if_neg present, replyMatch_eq_none h]

end

/-! ### The reply timer (R114, R137) -/

theorem exec_replyTimeout_running {t : TagId} {x : TagRecord} (h : s.tag t = some x) :
    exec (.replyTimeout t) s =
      .next (chargeMiss x.position (x.tell .timeout 0 ((elapse x.timer s).setTag t none))) := by
  have counted : (elapse x.timer s).tag t = some { x with timer := x.timer - x.timer } := by
    rw [elapse_tag, h]
    rfl
  change execReplyTimeout t s = _
  rw [execReplyTimeout, h]
  simp only [replyTimedOut, counted, endTransaction_eq counted]
  rfl

theorem exec_replyTimeout_idle {t : TagId} (h : s.tag t = none) : exec (.replyTimeout t) s = .next s := by
  change execReplyTimeout t s = _
  rw [execReplyTimeout, h]

/-- Settles O41: a REPLY by whether its position is ABSENT and which record it matches; a timeout by the record of its tag. -/
theorem repliesAndTimeoutsEndTransactions : Obligations.RepliesAndTimeoutsEndTransactions := by
  refine ⟨?_, fun e position tag status value q s place known unused => ?_,
    fun t s => exec_replyTimeout_idle⟩
  · intro t x s record ended
    have told : ∀ code value u, ended code value u = x.tell code value (u.setTag t none) := fun code value u => by
      dsimp only [ended, TagRecord.tell]
      rcases x.origin with ⟨_ | _, _⟩ | _ <;> rfl
    have replied : ∀ {e : ChainEnd} {position tag status : Byte} {value : BitVec 16},
        position.toNat = x.position.val + 1 → tag.toNat = t.val → status.toNat ≤ 2 → (s.node x.position).state ≠ .absent →
        exec (.reply e position tag status value) s =
          .next (ended (replyOutcome status value).1 (replyOutcome status value).2 (hear x.position s)) :=
      fun place tagged known present => by
        rw [exec_reply place known, takeReply_matched record tagged present, told]
    refine ⟨fun e position tag status value place tagged => ?_,
      fun e position tag status value q place other tagged known present => ?_, ?_⟩
    · refine ⟨?_, ?_, ?_, exec_reply_absent place⟩ <;>
      · rintro rfl
        exact replied place tagged (by decide)
    · rw [exec_reply place known, takeReply_unmatched present]
      intro t' tagged' y at_
      obtain rfl : t' = t := Fin.ext (tagged'.symm.trans tagged)
      obtain rfl := Option.some.inj (at_.symm.trans record)
      exact other.symm
    · rw [exec_replyTimeout_running record, told]
  · split_ifs with absent
    · exact exec_reply_absent place absent
    · rw [exec_reply place known, takeReply_unmatched absent]
      exact fun t tagged x at_ => nomatch (unused t tagged).symm.trans at_

end Sys2Proof.Machine
end

section
/-! SUPPORT. The queue areas as an invariant: the operations that keep layouts and joins keep it, and AREA, JOIN_AREA and the
resets lay areas out and join them only so that it still holds. -/

-- One theorem after the other: each elaboration task that runs beside another takes a stack from the check's memory limit.
set_option Elab.async false

namespace Sys2Proof.Machine

variable {s t : State}

/-! ### The checks of AREA and JOIN_AREA (R118, R119) -/

theorem Area.enabled_iff {x : Area} : x.enabled = true ↔ x.start < x.stop := decide_eq_true_iff

theorem Area.not_enabled_iff {x : Area} : x.enabled = false ↔ x.stop ≤ x.start := by
  rw [← Bool.not_eq_true, Area.enabled_iff, Nat.not_lt]

/-- The layout start to stop − 1 shares a slot with an enabled area other than a. -/
def State.Shares (s : State) (a : AreaId) (start stop : Nat) : Prop :=
  start < stop ∧ ∃ b, b ≠ a ∧ (s.area b).start < (s.area b).stop ∧ start < (s.area b).stop ∧ (s.area b).start < stop

theorem overlaps_iff {a : AreaId} {start stop : Nat} : s.overlaps a start stop = true ↔ s.Shares a start stop := by
  simp only [State.overlaps, State.Shares, Bool.and_eq_true, decide_eq_true_eq, List.any_eq_true, List.mem_finRange,
    true_and, Area.enabled_iff, and_assoc]

/-- The search of JOIN_AREA for another area that is joined alike. -/
theorem any_joinedElsewhere_iff {a : AreaId} {join : Option Join} :
    ((List.finRange 12).any fun b => decide (b ≠ a) && decide ((s.area b).join = join)) = true
      ↔ ∃ b, b ≠ a ∧ (s.area b).join = join := by
  simp only [List.any_eq_true, List.mem_finRange, true_and, Bool.and_eq_true, decide_eq_true_eq]

/-! ### Operations that keep layouts and joins -/

namespace AreasKept

theorem silenceExpired (s : State) : AreasKept s (silenceExpired s) := by
  simp only [Machine.silenceExpired]
  split
  · exact (enterPhase _ _ _).after rfl
  · exact of_eq rfl

theorem answerCleared (s : State) (f : Frame) : AreasKept s (answerCleared s f) := out (.answerCleared s f)

theorem reply (code : Nat) (r : Request) (o : Owned) : AreasKept o.state (reply code r o) := out (.reply code r o)

/-! ### The owners of requests -/

section
variable (r : Request) (s : State)

theorem ownFieldReset : AreasKept s (ownFieldReset s).state := by
  simp only [Machine.ownFieldReset]
  (repeat' split) <;> simp only [done_state, refuse_state, refl]
  exact fieldReset s

theorem ownLinkReset : AreasKept s (ownLinkReset r s).state := by
  simp only [Machine.ownLinkReset]
  (repeat' split) <;> simp only [done_state, refuse_state, refl, resetChainEnd]
  exact of_eq (by simp)

theorem enrol (n : StationId) (kind : StationKind) (a : Alliance) (team : Nat) (partner : Option StationId) :
    AreasKept s (enrol n kind a team partner s) := by
  simp only [Machine.enrol]
  split
  · exact ((out (.stationChange _ _ _ _)).trans (evaluatePartners _ _)).after rfl
  · exact of_eq rfl

theorem ownEnrol : AreasKept s (ownEnrol r s).state := by
  simp only [Machine.ownEnrol]
  (repeat' split) <;> simp only [done_state, refuse_state, refl, enrol]

theorem ownUnenrol : AreasKept s (ownUnenrol r s).state := by
  simp only [Machine.ownUnenrol]
  (repeat' split) <;> simp only [done_state, refuse_state, refl, changeStation]

theorem ownDisable : AreasKept s (ownDisable r s).state := by
  simp only [Machine.ownDisable, disableStation]
  (repeat' split) <;> simp only [done_state, refuse_state, refl, changeStation]

theorem ownEnable : AreasKept s (ownEnable r s).state := by
  simp only [Machine.ownEnable]
  (repeat' split) <;> simp only [done_state, refuse_state, refl, changeStation]

theorem ownEject : AreasKept s (ownEject r s).state := by
  simp only [Machine.ownEject]
  (repeat' split) <;> simp only [done_state, refuse_state, refl, changeStation]

theorem ownClearArea : AreasKept s (ownClearArea r s).state := by
  simp only [Machine.ownClearArea]
  split
  · exact refl s
  · next a _ =>
    have emptied : AreasKept s (s.setArea a { s.area a with frames := [] }) :=
      setArea ⟨rfl, rfl, rfl⟩ (fun _ => Nat.zero_le _) (fun _ => Nat.zero_le _) fun _ => Nat.le_max_left _ _
    simp only [done_state]
    split
    · exact emptied.trans (foldl answerCleared _ _)
    · exact emptied

theorem ownReadArea : AreasKept s (ownReadArea r s).state := by
  simp only [Machine.ownReadArea]
  (repeat' split) <;> simp only [done_state, refuse_state, refl, clearCounts]

theorem ownResetNode : AreasKept s (ownResetNode r s).state := by
  simp only [Machine.ownResetNode]
  (repeat' split) <;> simp only [done_state, refuse_state, refl, resetNode]

theorem ownStage : AreasKept s (ownStage s).state := by
  simp only [Machine.ownStage]
  (repeat' split) <;> simp only [done_state, refuse_state, refl, enterPhase]

theorem ownUnstage : AreasKept s (ownUnstage s).state := by
  simp only [Machine.ownUnstage]
  split <;> simp only [done_state, refuse_state, refl, enterPhase]

theorem ownStart : AreasKept s (ownStart s).state := by
  simp only [Machine.ownStart]
  split <;> simp only [done_state, refuse_state, refl]
  exact ((enterPhase _ _ _).trans (passThrough _)).after rfl

theorem ownPause : AreasKept s (ownPause s).state := by
  simp only [Machine.ownPause]
  split <;> simp only [done_state, refuse_state, refl, pauseMatch, enterPhase]

theorem ownResume : AreasKept s (ownResume s).state := by
  simp only [Machine.ownResume]
  split <;> simp only [done_state, refuse_state, refl]
  exact (enterPhase _ _ s).trans (passThrough _)

theorem ownAbort : AreasKept s (ownAbort s).state := by
  simp only [Machine.ownAbort]
  split <;> simp only [done_state, refuse_state, refl, enterPhase]

theorem ownRuling : AreasKept s (ownRuling r s).state := by
  simp only [Machine.ownRuling]
  (repeat' split) <;> simp only [done_state, refuse_state, refl]
  exact (out (.scoreNotice _ _)).after rfl

theorem ownPoints (add : Tally → Alliance → Nat → Tally) : AreasKept s (ownPoints r add s).state := by
  simp only [Machine.ownPoints]
  (repeat' split) <;> simp only [done_state, refuse_state, refl]
  exact (out (.scoreNotice _ _)).after rfl

/-- Every request but AREA and JOIN_AREA keeps the layouts and the joins. -/
theorem ownerOf {code : Nat} (laysOut : code ≠ 0x40) (joins : code ≠ 0x41) : AreasKept s (ownerOf code r s).state := by
  unfold Machine.ownerOf
  split
  case h_24 => exact absurd rfl laysOut
  case h_25 => exact absurd rfl joins
  any_goals simp only [ownFieldReset, ownLinkReset, ownEnrol, ownUnenrol, ownDisable, ownEnable, ownEject, ownClearArea,
    ownReadArea, ownResetNode, ownStage, ownUnstage, ownStart, ownPause, ownResume, ownAbort, ownRuling, ownPoints]
  case h_2 | h_46 => exact refl s
  all_goals simp only [ownReadStatus, ownReadStation, ownStaleLimit, ownWriteRule, ownReadRule, ownRuleCount,
    ownKindDefault, ownMapWindow, ownHide, ownPartner, declarePartner, removePartner, ownProfile, ownReadMap, ownReadClaim,
    ownCreditParams, ownReadCredit, ownChainConfig, ownCensus, ownElementDirect, ownReadNode, ownPhaseTimes,
    ownSilenceLimit, ownGoalConfig, ownReadScore]
  all_goals (repeat' split)
  all_goals exact of_eq (by simp)

end

end AreasKept

/-! ### The invariant -/

namespace State.QueuesFit

/-- An operation that keeps layouts and joins, and lets no area outgrow its capacity or its peak, keeps the invariant. -/
theorem keep (h : s.QueuesFit) (kept : AreasKept s t) : t.QueuesFit := by
  have enabled : ∀ a, (t.area a).enabled = (s.area a).enabled := fun a => by
    obtain ⟨start, stop, -⟩ := kept.layout a
    rw [Area.enabled, start, stop, Area.enabled]
  refine ⟨fun a => ?_, fun a => kept.room a (h.room a), fun a => kept.peak a (h.peak a), fun a off => ?_,
    fun a b ne ona onb => ?_, fun a b same joined => ?_⟩
  · obtain ⟨start, stop, -⟩ := kept.layout a
    rw [start, stop]
    exact h.inMemory a
  · obtain ⟨-, -, join⟩ := kept.layout a
    rw [join]
    exact h.disabled a (enabled a ▸ off)
  · obtain ⟨startA, stopA, -⟩ := kept.layout a
    obtain ⟨startB, stopB, -⟩ := kept.layout b
    rw [startA, stopA, startB, stopB]
    exact h.apart a b ne (enabled a ▸ ona) (enabled b ▸ onb)
  · obtain ⟨-, -, joinA⟩ := kept.layout a
    obtain ⟨-, -, joinB⟩ := kept.layout b
    rw [joinA, joinB] at same
    exact h.onePair a b same (joinA ▸ joined)

/-- An empty area is written with a layout that shares no slot and a join that no other area has (R116). -/
theorem setArea (h : s.QueuesFit) {a : AreaId} {x : Area} (empty : x.frames = [])
    (inMemory : x.start ≤ 256 ∧ x.stop ≤ 256) (disabled : x.enabled = false → x.join = none)
    (apart : ¬s.Shares a x.start x.stop) (alone : x.join ≠ none → ∀ b, b ≠ a → (s.area b).join ≠ x.join) :
    (s.setArea a x).QueuesFit := by
  have written : ∀ b, (s.setArea a x).area b = if b = a then x else s.area b := fun b => State.area_setArea ..
  have separate : ∀ b, b ≠ a → x.enabled = true → (s.area b).enabled = true →
      x.stop ≤ (s.area b).start ∨ (s.area b).stop ≤ x.start := fun b other on onb => by
    by_contra c
    obtain ⟨after, before⟩ := not_or.mp c
    exact apart ⟨Area.enabled_iff.mp on, b, other, Area.enabled_iff.mp onb, Nat.not_le.mp before, Nat.not_le.mp after⟩
  refine ⟨fun b => ?_, fun b => ?_, fun b => ?_, fun b => ?_, fun b c => ?_, fun b c => ?_⟩
  · rw [written]
    split
    · exact inMemory
    · exact h.inMemory b
  · rw [written]
    split
    · exact empty ▸ Nat.zero_le _
    · exact h.room b
  · rw [written]
    split
    · exact empty ▸ Nat.zero_le _
    · exact h.peak b
  · rw [written]
    split
    · exact disabled
    · exact h.disabled b
  · rw [written, written]
    split_ifs with isB isC isC
    · exact fun ne => absurd (isB.trans isC.symm) ne
    · exact fun _ on onc => separate c isC on onc
    · exact fun _ onb on => (separate b isB on onb).symm
    · exact h.apart b c
  · rw [written, written]
    split_ifs with isB isC isC
    · exact fun _ _ => isB.trans isC.symm
    · exact fun same joined => absurd same.symm (alone joined c isC)
    · exact fun same joined => absurd same (alone (same ▸ joined) b isB)
    · exact h.onePair b c

/-- A layout that passes the checks of AREA shares no slot, and the join that stays is the area's own (R118). -/
theorem layOut (h : s.QueuesFit) {a : AreaId} {start stop : Nat} (empty : (s.area a).frames = [])
    (inMemory : start ≤ 256 ∧ stop ≤ 256) (apart : ¬s.Shares a start stop) :
    (s.setArea a { s.area a with start, stop, join := if start < stop then (s.area a).join else none }).QueuesFit := by
  refine h.setArea empty inMemory (fun off => if_neg (of_decide_eq_false off)) apart fun joined b other same => ?_
  dsimp only at joined same
  split_ifs at joined same
  · exact other (h.onePair b a same (same ▸ joined))
  · exact joined rfl

theorem ownArea (h : s.QueuesFit) (r : Request) : (ownArea r s).state.QueuesFit := by
  unfold Machine.ownArea
  dsimp only
  split
  · exact h
  split
  · exact h
  split
  · exact h
  next a _ inside =>
  split
  · exact h
  next busy =>
  split
  · exact h
  next apart =>
  exact h.layOut (by simpa using busy) (by omega) (mt overlaps_iff.mpr apart)

/-- A join that passes the checks of JOIN_AREA is an enabled area's, and no other area's (R119). -/
theorem ownJoinArea (h : s.QueuesFit) (r : Request) : (ownJoinArea r s).state.QueuesFit := by
  unfold Machine.ownJoinArea
  split
  · exact h
  split
  · next a join _ _ =>
    split
    · exact h
    next busy =>
    split
    · exact h
    next off =>
    split
    · exact h
    next taken =>
    rw [Bool.and_eq_true, any_joinedElsewhere_iff] at taken
    rw [Bool.and_eq_true, Bool.not_eq_true'] at off
    have own : ¬s.Shares a (s.area a).start (s.area a).stop := fun ⟨on, b, other, onb, after, before⟩ => by
      have := h.apart a b other.symm (Area.enabled_iff.mpr on) (Area.enabled_iff.mpr onb)
      omega
    refine h.setArea (by simpa using busy) (h.inMemory a) (fun disabled => ?_) own fun joined b other same => ?_
    · exact Option.not_isSome_iff_eq_none.mp fun joined => off ⟨joined, disabled⟩
    · exact taken ⟨Option.isSome_iff_ne_none.mpr joined, b, other, same⟩
  · exact h

/-- At power-on area 0 alone is enabled and joined (R117). -/
theorem powerOnBlocks (s : State) : (powerOnBlocks s).QueuesFit := by
  have areas : ∀ a, (Machine.powerOnBlocks s).area a = if a = 0 then .zero else .disabled := fun a => by
    change powerOnAreas.get a = _
    rw [powerOnAreas, Table.get_set, Table.get_fill]
  have off : (.disabled : Area).enabled = false := rfl
  refine ⟨fun a => ?_, fun a => ?_, fun a => ?_, fun a => ?_, fun a b ne => ?_, fun a b => ?_⟩
  all_goals simp only [areas]
  · split <;> decide
  · split <;> decide
  · split <;> decide
  · split <;> decide
  · split_ifs with isA isB
    · exact absurd (isA.trans isB.symm) ne
    all_goals simp [off]
  · split_ifs with isA isB isB
    · exact fun _ _ => isA.trans isB.symm
    · exact nofun
    · exact fun _ joined => absurd rfl joined
    · exact fun _ joined => absurd rfl joined

theorem restart (cause : StartCause) (s : State) : (restart cause s).QueuesFit :=
  (powerOnBlocks s).keep (.out (.notice _ _ _))

theorem ownerOf (h : s.QueuesFit) (code : Nat) (r : Request) : (ownerOf code r s).state.QueuesFit := by
  by_cases laysOut : code = 0x40
  · subst laysOut
    exact h.ownArea r
  by_cases joins : code = 0x41
  · subst joins
    exact h.ownJoinArea r
  exact h.keep (.ownerOf r s laysOut joins)

theorem effect (h : s.QueuesFit) (e : Effect s t) : t.QueuesFit := by
  have arrived : (mgmtArrives s).QueuesFit := h.keep (.of_eq (by simp))
  cases e with
  | restarted cause => exact restart cause s
  | owned code r => exact (arrived.ownerOf code r).keep (.reply code r _)
  | refused code r x => exact arrived.keep (.reply code r (refuse x _))
  | short => exact arrived
  | kept => exact h
  | station k f => exact h.keep ((AreasKept.stationFrame k f _).after (by simp))
  | took p => exact h.keep (.takeFrame p s)
  | replied q tag status value => exact h.keep (.takeReply q tag status value s)
  | sensed q code => exact h.keep (.takeSense q code s)
  | probed e q kind => exact h.keep (.takeProbeReply e q kind s)
  | dequeued => exact h.keep (.dequeueOne s)
  | sentPending => exact h.keep (.sendPending s)
  | quiet n k => exact h.keep ((AreasKept.elapse k s).trans (.quietExpired n _))
  | hold q k => exact h.keep ((AreasKept.elapse k s).trans (.holdExpired q _))
  | bar q k => exact h.keep ((AreasKept.elapse k s).trans (.barExpired q _))
  | phase k => exact h.keep ((AreasKept.elapse k s).trans (.passThrough _))
  | silence k => exact h.keep ((AreasKept.elapse k s).trans (.silenceExpired _))
  | timeout t k => exact h.keep ((AreasKept.elapse k s).trans (.replyTimedOut t _))
  | unanswered c k => exact h.keep ((AreasKept.elapse k s).trans (.continueCensus c _))
  | settled g k => exact h.keep ((AreasKept.elapse k s).trans (.settleExpired g _))
  | final k => exact h.keep ((AreasKept.elapse k s).trans (.endFinalSettle _))
  | tick k => exact h.keep (.of_eq (by simp))
  | discarded p => exact h.keep (.of_eq (by simp))
  | framer p x => exact h.keep (.of_eq (by simp))
  | sentNext e => exact h.keep (.of_eq (by simp))

end State.QueuesFit

/-- Settles O56: no effect but the resets, AREA and JOIN_AREA changes a layout or a join, and these leave the areas in memory,
apart and joined once. -/
theorem everyStepKeepsTheQueueAreas : Obligations.EveryStepKeepsTheQueueAreas := fun _ _ h hs =>
  step_keeps (fun _ _ h => h.keep (.of_eq rfl)) (fun s h => h.keep (.elapse 1 s)) (fun _ _ h e => h.effect e) h hs

end Sys2Proof.Machine
end

section
/-! SUPPORT. The choice of an area: the area of a pair, and the order in which an offer looks for one. -/

-- One theorem after the other: each elaboration task that runs beside another takes a stack from the check's memory limit.
set_option Elab.async false

namespace Sys2Proof.Machine

variable {s : State} {c : Consumer} {l : Lane} {steer : Option AreaId} {a : AreaId}

theorem servesConsumer_iff {x : Area} : x.servesConsumer c = true ↔ ∃ l, x.join = some { consumer := c, lane := l } := by
  rw [Area.servesConsumer, Option.any_eq_true]
  constructor
  · rintro ⟨⟨consumer, lane⟩, join, same⟩
    exact ⟨lane, by rw [join, ← of_decide_eq_true same]⟩
  · rintro ⟨lane, join⟩
    exact ⟨_, join, decide_eq_true rfl⟩

/-! ### The area of a pair (R116) -/

theorem joinedArea_eq_none_iff : s.joinedArea c l = none ↔ ∀ a, (s.area a).join ≠ some { consumer := c, lane := l } := by
  constructor
  · exact fun h a => of_decide_eq_false (Table.find?_none h a)
  · exact fun h => find?_finRange_eq_none fun a found => h a (of_decide_eq_true found)

/-- Where a pair is joined at most once its area is the one joined to it. -/
theorem joinedArea_eq_some_iff (h : s.QueuesFit) :
    s.joinedArea c l = some a ↔ (s.area a).join = some { consumer := c, lane := l } := by
  refine ⟨joinedArea_join, fun join => ?_⟩
  cases found : s.joinedArea c l with
  | none => exact absurd join (joinedArea_eq_none_iff.mp found a)
  | some b =>
    have same := (joinedArea_join found).trans join.symm
    rw [h.onePair b a same (by rw [joinedArea_join found]; exact Option.some_ne_none _)]

/-! ### The order of the choice (R44, R120) -/

/-- The steer area may take the frame: it is enabled and joined to the consumer. -/
def State.Steers (s : State) (c : Consumer) (a : AreaId) : Prop :=
  (s.area a).start < (s.area a).stop ∧ (s.area a).servesConsumer c = true

theorem chooseArea_steered (h : s.Steers c a) : s.chooseArea c l (some a) = some a := by
  obtain ⟨enabled, serves⟩ := h
  rw [State.chooseArea, Option.filter_some_pos (by rw [Area.enabled_iff.mpr enabled, serves]; rfl)]

/-- Without a steer area, or with one that may not take the frame, the pair's area is chosen, else the first lane's. -/
theorem chooseArea_unsteered (h : steer = none ∨ steer = some a ∧ ¬s.Steers c a) :
    s.chooseArea c l steer = (s.joinedArea c l).or
      ((s.joinedArea c .urgent).or ((s.joinedArea c .normal).or (s.joinedArea c .bulk))) := by
  have refused : (steer.filter fun a => (s.area a).enabled && (s.area a).servesConsumer c) = none := by
    rcases h with rfl | ⟨rfl, kept⟩
    · rfl
    · refine Option.filter_some_neg (Bool.eq_false_iff.mpr fun takes => kept ?_)
      rwa [Bool.and_eq_true, Area.enabled_iff] at takes
  rw [State.chooseArea, refused]
  cases s.joinedArea c l <;> rfl

/-- Settles O10: a steer area comes before the pair's area, and that before the first lane's; a pair's area is found by its
join, which is no other area's where the areas fit. -/
theorem areaIsChosenByJoinAndLane : Obligations.AreaIsChosenByJoinAndLane := by
  intro c lane steer s
  refine ⟨fun a chosen => servesConsumer_iff.mp (chooseArea_serves chosen), fun a steered enabled serves => ?_,
    fun a b kept pair => ?_, fun b kept unpaired => ?_, fun a => joinedArea_join, joinedArea_eq_none_iff,
    fun fits a => joinedArea_eq_some_iff fits⟩
  · rw [steered, chooseArea_steered ⟨enabled, serves⟩]
  · rw [chooseArea_unsteered kept, pair, Option.some_or]
  · rw [chooseArea_unsteered kept, unpaired, Option.none_or, Option.or_assoc]

end Sys2Proof.Machine
end

section
/-! SUPPORT. The requests of the queue manager: the checks of AREA and JOIN_AREA one by one, what CLEAR_AREA discards and
answers, and the bytes of READ_AREA. -/

-- One theorem after the other: each elaboration task that runs beside another takes a stack from the check's memory limit.
set_option Elab.async false

namespace Sys2Proof

/-! ### The codes of lanes and consumers -/

theorem Lane.ofCode_code (l : Lane) : Lane.ofCode l.code = some l := by cases l <;> rfl

theorem Lane.ofCode_bad {k : Nat} (h : 2 < k) : Lane.ofCode k = none := by
  match k, h with
  | k + 3, _ => rfl

namespace Machine

variable {r : Request} {s : State} {a : AreaId}

theorem Consumer.code_le (c : Consumer) : c.code ≤ 5 := by
  cases c with
  | port p => exact p.code_le.trans (by decide)
  | chain => exact le_rfl

theorem Consumer.ofCode_code (c : Consumer) : Consumer.ofCode c.code = some c := by
  cases c with
  | port p =>
    have low := p.code_le
    rw [Consumer.code, Consumer.ofCode, if_neg (by omega), Port.ofCode_code, Option.map_some]
  | chain => rfl

theorem Consumer.ofCode_bad {k : Nat} (h : 5 < k) : Consumer.ofCode k = none := by
  rw [Consumer.ofCode, if_neg (by omega), Port.ofCode_of_lt (by omega), Option.map_none]

/-! ### AREA (R118) -/

theorem exec_area (h : r.args.length ≤ 46) (given : 5 ≤ r.args.length) :
    exec (.area r) s = .next (reply 0x40 r (ownArea r (mgmtArrives s))) := takeRequest_taken h given

theorem ownArea_locked (h : s.control.phase.isBetween = false) : ownArea r s = refuse .locked s := by
  rw [ownArea, h]
  rfl

section
variable (between : s.control.phase.isBetween = true)
include between

theorem ownArea_bad (h : 11 < byteAt r.args 0 ∨ 256 < wordAt r.args 1 ∨ 256 < wordAt r.args 3) :
    ownArea r s = refuse .badArgument s := by
  simp only [ownArea, between, Bool.not_true, Bool.false_eq_true, if_false]
  split
  · rfl
  · next a named =>
    have low := ofIndex_val named
    exact if_pos (h.resolve_left (by omega))

/-- The checks on the area that AREA names, then the layout. -/
theorem ownArea_named (named : byteAt r.args 0 = a.val) (start : wordAt r.args 1 ≤ 256) (stop : wordAt r.args 3 ≤ 256) :
    ownArea r s =
      if (s.area a).frames ≠ [] then refuse .busy s
      else if s.overlaps a (wordAt r.args 1) (wordAt r.args 3) then refuse .overlap s
      else done (s.setArea a { s.area a with
        start := wordAt r.args 1, stop := wordAt r.args 3
        join := if wordAt r.args 1 < wordAt r.args 3 then (s.area a).join else none }) := by
  have inside : ¬(256 < wordAt r.args 1 ∨ 256 < wordAt r.args 3) := by omega
  simp only [ownArea, between, ofIndex_of a named, inside, Bool.not_true, Bool.false_eq_true, if_false,
    Bool.not_eq_true', List.isEmpty_eq_false_iff]

end

/-! ### JOIN_AREA (R119) -/

theorem exec_joinArea (h : r.args.length ≤ 46) (given : 3 ≤ r.args.length) :
    exec (.joinArea r) s = .next (reply 0x41 r (ownJoinArea r (mgmtArrives s))) := takeRequest_taken h given

/-- Consumer code 0xFF names no pair, whatever the lane byte. -/
theorem joinOf_unjoin (lane : Nat) : joinOf 255 lane = some none := rfl

theorem joinOf_pair (c : Consumer) (l : Lane) : joinOf c.code l.code = some (some { consumer := c, lane := l }) := by
  have low := c.code_le
  rw [joinOf, if_neg (by omega), c.ofCode_code, l.ofCode_code]

theorem joinOf_bad {consumer lane : Nat} (h : (5 < consumer ∧ consumer ≠ 255) ∨ (consumer ≤ 5 ∧ 2 < lane)) :
    joinOf consumer lane = none := by
  rcases h with ⟨high, joins⟩ | ⟨low, high⟩
  · rw [joinOf, if_neg joins, Consumer.ofCode_bad high]
  · rw [joinOf, if_neg (by omega), Lane.ofCode_bad high]
    cases Consumer.ofCode consumer <;> rfl

theorem ownJoinArea_locked (h : s.control.phase.isBetween = false) : ownJoinArea r s = refuse .locked s := by
  rw [ownJoinArea, h]
  rfl

section
variable (between : s.control.phase.isBetween = true)
include between

theorem ownJoinArea_bad (h : 11 < byteAt r.args 0 ∨ joinOf (byteAt r.args 1) (byteAt r.args 2) = none) :
    ownJoinArea r s = refuse .badArgument s := by
  simp only [ownJoinArea, between, Bool.not_true, Bool.false_eq_true, if_false]
  split
  · next a join named spelled =>
    have low := ofIndex_val named
    rcases h with high | bad
    · omega
    · exact nomatch bad.symm.trans spelled
  · rfl

/-- The checks on the area and the pair that JOIN_AREA names, then the join. -/
theorem ownJoinArea_named {join : Option Join} (named : byteAt r.args 0 = a.val)
    (spelled : joinOf (byteAt r.args 1) (byteAt r.args 2) = some join) :
    ownJoinArea r s =
      if (s.area a).frames ≠ [] then refuse .busy s
      else if join.isSome && !(s.area a).enabled then refuse .state s
      else if join.isSome && (List.finRange 12).any (fun b => decide (b ≠ a) && decide ((s.area b).join = join)) then
        refuse .overlap s
      else done (s.setArea a { s.area a with join }) := by
  simp only [ownJoinArea, between, ofIndex_of a named, spelled, Bool.not_true, Bool.false_eq_true, if_false,
    Bool.not_eq_true', List.isEmpty_eq_false_iff]

theorem ownJoinArea_unjoined (named : byteAt r.args 0 = a.val) (unjoin : byteAt r.args 1 = 255) :
    ownJoinArea r s =
      if (s.area a).frames ≠ [] then refuse .busy s else done (s.setArea a { s.area a with join := none }) := by
  rw [ownJoinArea_named between named (unjoin ▸ joinOf_unjoin _)]
  rfl

/-- For a pair the area must be enabled, and the pair joined to no other area. -/
theorem ownJoinArea_pair {c : Consumer} {l : Lane} (named : byteAt r.args 0 = a.val) (consumer : c.code = byteAt r.args 1)
    (lane : l.code = byteAt r.args 2) :
    ownJoinArea r s =
      if (s.area a).frames ≠ [] then refuse .busy s
      else if (s.area a).stop ≤ (s.area a).start then refuse .state s
      else if ∃ b, b ≠ a ∧ (s.area b).join = some { consumer := c, lane := l } then refuse .overlap s
      else done (s.setArea a { s.area a with join := some { consumer := c, lane := l } }) := by
  rw [ownJoinArea_named between named (consumer ▸ lane ▸ joinOf_pair c l)]
  simp only [Option.isSome_some, Bool.true_and, Bool.not_eq_true', Area.not_enabled_iff, any_joinedElsewhere_iff]

end

/-- Settles O34: AREA and JOIN_AREA by their checks in order; what an area is written with is what the request spells. -/
theorem areasAreLaidOutAndJoined : Obligations.AreasAreLaidOutAndJoined := by
  intro r s len m start stop consumer lane area join
  have laid : ∀ {o}, ownArea r m = o → area o := fun h given => h ▸ exec_area len given
  have joined : ∀ {o}, ownJoinArea r m = o → join o := fun h given => h ▸ exec_joinArea len given
  refine ⟨fun locked => ⟨laid (ownArea_locked locked), joined (ownJoinArea_locked locked)⟩, fun between =>
    ⟨fun bad => laid (ownArea_bad between bad), fun bad => joined (ownJoinArea_bad between (bad.imp_right joinOf_bad)),
      fun a named => ⟨fun low high => ?_, fun unjoin => ?_, fun c l hc hl => ?_⟩⟩⟩
  · have checks := ownArea_named (s := m) between named low high
    refine ⟨fun busy => laid ?_, fun empty shares => laid ?_, fun empty apart => laid ?_⟩
    · exact checks.trans (if_pos busy)
    · exact (checks.trans (if_neg (not_not_intro empty))).trans (if_pos (overlaps_iff.mpr shares))
    · exact (checks.trans (if_neg (not_not_intro empty))).trans (if_neg (mt overlaps_iff.mp apart))
  · have checks := ownJoinArea_unjoined (s := m) between named unjoin
    refine ⟨fun busy => joined ?_, fun empty => joined ?_⟩
    · exact checks.trans (if_pos busy)
    · exact checks.trans (if_neg (not_not_intro empty))
  · have checks := ownJoinArea_pair (s := m) between named hc hl
    refine ⟨fun busy => joined ?_, fun empty off => joined ?_, fun empty on taken => joined ?_,
      fun empty on alone => joined ?_⟩
    · exact checks.trans (if_pos busy)
    all_goals replace checks := checks.trans (if_neg (not_not_intro empty))
    · exact checks.trans (if_pos off)
    all_goals replace checks := checks.trans (if_neg (Nat.not_le.mpr on))
    · exact checks.trans (if_pos taken)
    · exact checks.trans (if_neg fun ⟨b, other, taken⟩ => alone b other taken)

/-! ### CLEAR_AREA (R128) -/

theorem exec_clearArea (h : r.args.length ≤ 46) (given : 1 ≤ r.args.length) :
    exec (.clearArea r) s = .next (reply 0x42 r (ownClearArea r (mgmtArrives s))) := takeRequest_taken h given

theorem ownClearArea_bad (h : 11 < byteAt r.args 0) : ownClearArea r s = refuse .badArgument s := by
  rw [ownClearArea, ofIndex_bad h]

theorem ownClearArea_named (named : byteAt r.args 0 = a.val) :
    ownClearArea r s = done
      (if (s.area a).servesConsumer .chain then
          (s.area a).frames.foldl answerCleared (s.setArea a { s.area a with frames := [] })
        else s.setArea a { s.area a with frames := [] })
      (be16 (s.area a).frames.length) := by
  rw [ownClearArea, ofIndex_of a named]

/-- The answer to a discarded command (R128). -/
theorem answerCleared_eq (s : State) (f : Frame) :
    answerCleared s f = match stationOf f.source with
      | some n => if f.kind = .element then
          answer n { code := .cleared, kind := .element, sequence := f.sequence, position := f.payload.headD 0, value := 0
                     extra := 0 } s
        else s
      | none => s := by
  rw [answerCleared]
  cases stationOf f.source <;> cases f.kind <;> rfl

/-! ### READ_AREA (R132) -/

theorem exec_readArea (h : r.args.length ≤ 46) (given : 2 ≤ r.args.length) :
    exec (.readArea r) s = .next (reply 0x43 r (ownReadArea r (mgmtArrives s))) := takeRequest_taken h given

theorem ownReadArea_bad (h : 11 < byteAt r.args 0 ∨ 1 < byteAt r.args 1) : ownReadArea r s = refuse .badArgument s := by
  rw [ownReadArea]
  rcases h with high | bad
  · rw [ofIndex_bad high]
  · rw [flagOf_bad bad]
    cases ofIndex 12 (byteAt r.args 0) <;> rfl

theorem ownReadArea_named (named : byteAt r.args 0 = a.val) (flag : byteAt r.args 1 ≤ 1) :
    ownReadArea r s = done (if byteAt r.args 1 = 1 then s.setArea a (s.area a).clearCounts else s) (s.area a).bytes := by
  simp only [ownReadArea, ofIndex_of a named, flagOf_of flag, decide_eq_true_eq]

theorem Area.bytes_eq (x : Area) : x.bytes =
    be16 x.start ++ be16 x.stop
      ++ (match x.join with
          | none => [255, 255]
          | some j => [byte j.consumer.code, byte j.lane.code])
      ++ be16 x.frames.length ++ be16 x.peak ++ be16 x.drops ++ [if x.notified then 1 else 0] := by
  have flag : byte x.notified.toNat = if x.notified then 1 else 0 := by cases x.notified <;> rfl
  rw [Area.bytes, flag]
  cases x.join <;> rfl

/-- Settles O35: CLEAR_AREA empties the area it names and answers its commands where it is a CHAIN area; READ_AREA by the bytes
of its table. -/
theorem areasAreClearedAndRead : Obligations.AreasAreClearedAndRead := by
  intro r s len m clear read
  have cleared : ∀ {o}, ownClearArea r m = o → clear o := fun h given => h ▸ exec_clearArea len given
  have answered : ∀ {o}, ownReadArea r m = o → read o := fun h given => h ▸ exec_readArea len given
  refine ⟨fun bad => cleared (ownClearArea_bad bad), fun bad => answered (ownReadArea_bad bad), fun a named =>
    ⟨fun elsewhere => cleared ?_, fun l chain => cleared ?_, fun flag => answered ?_⟩⟩
  · have other : ¬(s.area a).servesConsumer .chain = true := fun serves =>
      (servesConsumer_iff.mp serves).elim elsewhere
    rw [ownClearArea_named named]
    exact congrArg (done · _) (if_neg other)
  · have serves : (s.area a).servesConsumer .chain = true := servesConsumer_iff.mpr ⟨l, chain⟩
    rw [ownClearArea_named named, funext₂ answerCleared_eq]
    exact congrArg (done · _) (if_pos serves)
  · rw [ownReadArea_named named flag, Area.bytes_eq]
    rfl

end Machine
end Sys2Proof
end

section
/-! SUPPORT. The halted flag as an invariant. Only a change of phase and the resets write the flag, and they write it as the new
phase says; every other effect keeps the flag and the phase. -/

-- One theorem after the other: each elaboration task that runs beside another takes a stack from the check's memory limit.
set_option Elab.async false

namespace Sys2Proof.Machine

variable {s t : State}

/-- HALT sets the flag and RESUME clears it; a change of phase without either leaves it (R145). -/
theorem chainEntry_chain_halted (old new : Phase) (s : State) :
    (chainEntry old new s).chain.halted =
      if new.isPaused then true else if old.isPaused then false else s.chain.halted := by
  simp only [chainEntry]
  split_ifs <;> simp

theorem enterPhase_chain_halted (new : Phase) (timer : Nat) (s : State) :
    (enterPhase new timer s).chain.halted =
      if new.isPaused then true else if s.control.phase.isPaused then false else s.chain.halted := by
  simp [enterPhase, chainEntry_chain_halted]

theorem enterPhase_control_phase (new : Phase) (timer : Nat) (s : State) : (enterPhase new timer s).control.phase = new := by
  simp [enterPhase]

/-- What every change of phase keeps is kept where running phases of length 0 are passed through. -/
theorem passThroughIn_preserves {P : State → Prop} (entered : ∀ new timer s, P s → P (enterPhase new timer s)) (k : Nat)
    (h : P s) : P (passThroughIn k s) := by
  induction k generalizing s with
  | zero => exact h
  | succ k ih =>
    simp only [passThroughIn]
    (repeat' split)
    · exact ih (entered _ _ _ h)
    · exact h
    · exact h

theorem resetStations_chain_halted (l : List StationId) : (l.foldl resetStation s).chain.halted = s.chain.halted :=
  foldl_keeps (fun s => s.chain.halted) (fun s x => by simp) _ _

theorem Phase.isPaused_of_isBetween {p : Phase} (h : p.isBetween = true) : p.isPaused = false := by
  cases p with
  | setup | ended => rfl
  | staged | running | paused => exact nomatch h

namespace State.haltFits

/-- Writes of parts other than the phase and the flag. -/
theorem congr (h : s.haltFits) (phase : t.control.phase = s.control.phase := by simp)
    (halted : t.chain.halted = s.chain.halted := by simp) : t.haltFits := by
  rw [State.haltFits, phase, halted]
  exact h

/-- Outside PAUSED the flag fits where it is clear. -/
theorem of_clear (halted : t.chain.halted = false) (phase : t.control.phase.isPaused = false) : t.haltFits :=
  halted.trans phase.symm

/-! ### Time and the phases -/

theorem elapse (h : s.haltFits) (k : Nat) : (elapse k s).haltFits := h.congr

/-- The entry of a phase writes the flag where the phase before or the new one is PAUSED, and where neither is the flag was
clear before. -/
theorem enterPhase (h : s.haltFits) (new : Phase) (timer : Nat) : (enterPhase new timer s).haltFits := by
  rw [State.haltFits, enterPhase_chain_halted, enterPhase_control_phase]
  split_ifs with halts resumes
  · exact halts.symm
  · exact (Bool.eq_false_of_not_eq_true halts).symm
  · rw [h, Bool.eq_false_of_not_eq_true halts, Bool.eq_false_of_not_eq_true resumes]

theorem passThrough (h : s.haltFits) : (passThrough s).haltFits :=
  passThroughIn_preserves (fun new timer _ h => h.enterPhase new timer) 4 h

theorem silenceExpired (h : s.haltFits) : (silenceExpired s).haltFits := by
  have stopped : (s.setControl { s.control with silence := none }).haltFits := h.congr rfl rfl
  simp only [Machine.silenceExpired]
  split
  · exact stopped.enterPhase _ _
  · exact stopped

/-! ### The resets -/

theorem powerOnBlocks (s : State) : (powerOnBlocks s).haltFits := of_clear rfl rfl

theorem restart (cause : StartCause) (s : State) : (restart cause s).haltFits :=
  (powerOnBlocks s).congr (by simp [Machine.restart]) (by simp [Machine.restart])

/-- FIELD_RESET clears the flag, in SETUP and ENDED alone. -/
theorem fieldReset (between : s.control.phase.isBetween = true) : (fieldReset s).haltFits := by
  have phase : ((List.finRange 32).foldl resetStation s).control.phase = s.control.phase :=
    foldl_keeps (fun s => s.control.phase) (fun s x => by simp) _ _
  have reset : (resetMatch (emptyStations (fillCredit (clearClaims
      ((List.finRange 32).foldl resetStation s))))).haltFits :=
    of_clear rfl (by simpa [resetMatch, phase] using Phase.isPaused_of_isBetween between)
  simp only [Machine.fieldReset]
  split
  · exact reset.enterPhase _ _
  · exact reset

/-! ### The owners of requests -/

theorem ownFieldReset (h : s.haltFits) : (ownFieldReset s).state.haltFits := by
  simp only [Machine.ownFieldReset]
  split
  · exact h
  · next between =>
    split
    · exact h
    · exact fieldReset (by simpa using between)

theorem ownStage (h : s.haltFits) : (ownStage s).state.haltFits := by
  simp only [Machine.ownStage]
  (repeat' split) <;> simp only [done_state, refuse_state, h]
  exact h.enterPhase _ _

theorem ownUnstage (h : s.haltFits) : (ownUnstage s).state.haltFits := by
  simp only [Machine.ownUnstage]
  split <;> simp only [done_state, refuse_state, h]
  exact h.enterPhase _ _

theorem ownStart (h : s.haltFits) : (ownStart s).state.haltFits := by
  have cleared : (s.setControl { s.control with accumulator := 0 }).haltFits := h.congr rfl rfl
  simp only [Machine.ownStart]
  split <;> simp only [done_state, refuse_state, h]
  exact (cleared.enterPhase _ _).passThrough

theorem ownPause (h : s.haltFits) : (ownPause s).state.haltFits := by
  simp only [Machine.ownPause]
  split <;> simp only [done_state, refuse_state, h]
  exact h.enterPhase _ _

theorem ownResume (h : s.haltFits) : (ownResume s).state.haltFits := by
  simp only [Machine.ownResume]
  split <;> simp only [done_state, refuse_state, h]
  exact (h.enterPhase _ _).passThrough

theorem ownAbort (h : s.haltFits) : (ownAbort s).state.haltFits := by
  simp only [Machine.ownAbort]
  split <;> simp only [done_state, refuse_state, h]
  all_goals exact h.enterPhase _ _

/-- Seven requests reset the field or change the phase; the others keep the phase and the flag. -/
theorem ownerOf (h : s.haltFits) (code : Nat) (r : Request) : (ownerOf code r s).state.haltFits := by
  unfold Machine.ownerOf
  split
  any_goals simp only [h.ownFieldReset, h.ownStage, h.ownUnstage, h.ownStart, h.ownPause, h.ownResume, h.ownAbort]
  all_goals exact h.congr

/-! ### The effects -/

theorem effect (h : s.haltFits) (e : Effect s t) : t.haltFits := by
  cases e with
  | restarted cause => exact restart cause s
  | owned code r =>
    have arrived : (mgmtArrives s).haltFits := h.congr
    exact (arrived.ownerOf code r).congr
  | phase k => exact (h.elapse k).passThrough
  | silence k => exact (h.elapse k).silenceExpired
  | tick k => exact (h.elapse k).congr rfl
  | quiet n k | hold q k | bar q k | timeout t k | unanswered c k | settled g k | final k => exact (h.elapse k).congr
  | _ => exact h.congr

end State.haltFits

/-- Settles O54: the flag is written only where the phase changes or a reset brings SETUP or ENDED, and fits there. -/
theorem everyStepKeepsTheHaltedFlag : Obligations.EveryStepKeepsTheHaltedFlag := fun _ _ h hs =>
  step_keeps (fun _ _ h => h) (fun _ h => h.elapse 1) (fun _ _ h e => h.effect e) h hs

end Sys2Proof.Machine
end

section
/-! SUPPORT. CHAIN_CONFIG and CENSUS: their checks one by one, and what they make of the chain when all have passed. -/

-- One theorem after the other: each elaboration task that runs beside another takes a stack from the check's memory limit.
set_option Elab.async false

namespace Sys2Proof.Machine

variable {r : Request} {s : State}

/-! ### CHAIN_CONFIG (R135) -/

theorem ChainMode.ofCode_code (mode : ChainMode) : ChainMode.ofCode mode.code = some mode := by cases mode <;> rfl

theorem ChainMode.ofCode_bad {k : Nat} (h : 1 < k) : ChainMode.ofCode k = none := by
  match k, h with
  | k + 2, _ => rfl

theorem exec_chainConfig (h : r.args.length ≤ 46) (given : 3 ≤ r.args.length) :
    exec (.chainConfig r) s = .next (reply 0x50 r (ownChainConfig r (mgmtArrives s))) := takeRequest_taken h given

theorem ownChainConfig_locked (h : s.control.phase ≠ .setup) : ownChainConfig r s = refuse .locked s := if_pos h

section
variable (setup : s.control.phase = .setup)
include setup

theorem ownChainConfig_bad (h : 1 < byteAt r.args 0 ∨ wordAt r.args 1 < 2 ∨ 250 < wordAt r.args 1) :
    ownChainConfig r s = refuse .badArgument s := by
  rw [ownChainConfig, if_neg (not_not_intro setup)]
  rcases h with mode | timeout
  · rw [ChainMode.ofCode_bad mode]
  · cases ChainMode.ofCode (byteAt r.args 0) with
    | none => rfl
    | some mode => exact if_pos timeout

/-- With its arguments in range the request waits for no census, and keeps the node records where the mode stays. -/
theorem ownChainConfig_named {mode : ChainMode} (named : mode.code = byteAt r.args 0) (low : 2 ≤ wordAt r.args 1)
    (high : wordAt r.args 1 ≤ 250) :
    ownChainConfig r s =
      if s.chain.census ≠ none then refuse .busy s
      else done { s with chain := { s.chain with
        mode, nodes := if mode = s.chain.mode then s.chain.nodes else .fill 32 .powerOn
        replyTimeout := wordAt r.args 1 } } := by
  rw [ownChainConfig, if_neg (not_not_intro setup), ← named, ChainMode.ofCode_code]
  exact if_neg (by omega)

end

/-! ### CENSUS (R141, R142) -/

theorem exec_census (h : r.args.length ≤ 46) :
    exec (.census r) s = .next (reply 0x51 r (ownCensus r (mgmtArrives s))) := takeRequest_taken h (Nat.zero_le _)

theorem ownCensus_locked (h : s.control.phase.isBetween = false) : ownCensus r s = refuse .locked s := by
  rw [ownCensus, h]
  rfl

theorem ownCensus_between (h : s.control.phase.isBetween = true) :
    ownCensus r s =
      if s.chain.census ≠ none then refuse .busy s
      else accepted (sendProbe r.tag .ca 0 { s with chain := { s.chain with nodes := .fill 32 .powerOn } }) := by
  rw [ownCensus, h]
  rfl

/-- Settles O37: the checks of CHAIN_CONFIG and CENSUS in order, the records the new mode leaves, and the first probe. -/
theorem chainIsConfiguredAndSurveyed : Obligations.ChainIsConfiguredAndSurveyed := by
  intro r s len m timeout config census absent
  have configured : ∀ {o}, ownChainConfig r m = o → config o := fun h given => h ▸ exec_chainConfig len given
  have surveyed : ∀ {o}, ownCensus r m = o → census o := fun h => h ▸ exec_census len
  refine ⟨fun locked => configured (ownChainConfig_locked locked),
    fun setup bad => configured (ownChainConfig_bad (s := m) setup bad),
    fun mode setup named low high => ?_,
    fun locked => surveyed (ownCensus_locked locked), fun between busy => ?_, fun between free => ?_⟩
  · have named := ownChainConfig_named (s := m) setup named low high
    exact ⟨fun busy => configured (named.trans (if_pos busy)),
      fun free => configured (named.trans (if_neg (not_not_intro free)))⟩
  · exact surveyed ((ownCensus_between (s := m) between).trans (if_pos busy))
  · exact surveyed ((ownCensus_between (s := m) between).trans (if_neg (not_not_intro free)))

end Sys2Proof.Machine
end

section
/-! SUPPORT. Folds that take the records of a table one by one. -/

-- One theorem after the other: each elaboration task that runs beside another takes a stack from the check's memory limit.
set_option Elab.async false

namespace Sys2Proof.Machine

/-- A fold whose steps each read one record, and write no other that is still to be read, may as well read the records that the
state s holds before it. -/
theorem foldl_reads_before {ι α : Type} {f : State → ι → State} {read : State → ι → α} {write : ι → α → State → State}
    (step : ∀ u k, f u k = write k (read u k) u) (apart : ∀ u k x j, j ≠ k → read (write k x u) j = read u j)
    {l : List ι} (once : l.Nodup) {s u : State} (same : ∀ k ∈ l, read u k = read s k) :
    l.foldl f u = l.foldl (fun u k => write k (read s k) u) u := by
  induction l generalizing u with
  | nil => rfl
  | cons k l ih =>
    obtain ⟨fresh, once⟩ := List.nodup_cons.mp once
    rw [List.foldl_cons, List.foldl_cons, step, same k List.mem_cons_self]
    refine ih once fun j member => ?_
    have other : j ≠ k := fun e => fresh (e ▸ member)
    rw [apart _ _ _ _ other, same j (List.mem_cons_of_mem k member)]

end Sys2Proof.Machine
end

section
/-! SUPPORT. Liveness: what becomes of a node that is heard or charged a miss, and of the far side of a node that is lost. -/

-- One theorem after the other: each elaboration task that runs beside another takes a stack from the check's memory limit.
set_option Elab.async false

namespace Sys2Proof.Machine

variable {s u : State} {q : Position}

@[simp] theorem node_nodeChange (q : Position) (old new : NodeState) (e : ChainEnd) (s : State) (k : Position) :
    (nodeChange q old new e s).node k = s.node k :=
  congrArg (fun c : Chain => c.nodes.get k) (nodeChange_chain s q old new e)

/-! ### A node is heard (R136) -/

theorem hear_absent (h : (s.node q).state = .absent) : hear q s = s := by rw [hear, h]

theorem hear_present (h : (s.node q).state = .present ∨ (s.node q).state = .ready) :
    hear q s = s.setNode q { s.node q with misses := 0 } := by
  rcases h with h | h <;> simp only [hear, h]

theorem hear_lost (h : (s.node q).state = .lost) :
    hear q s =
      nodeChange q .lost .ready (s.node q).servingEnd (s.setNode q { s.node q with state := .ready, misses := 0 }) := by
  rw [hear, h]

/-! ### A node is charged a miss (R137) -/

theorem chargeMiss_absent (h : (s.node q).state = .absent) : chargeMiss q s = s := by rw [chargeMiss, h]

/-- The miss is counted and no more where the node is not READY, or is READY and this is not its third. -/
theorem chargeMiss_counted (h : (s.node q).state = .present ∨ (s.node q).state = .lost
      ∨ ((s.node q).state = .ready ∧ min 3 ((s.node q).misses + 1) < 3)) :
    chargeMiss q s = s.setNode q { s.node q with misses := min 3 ((s.node q).misses + 1) } := by
  rcases h with h | h | ⟨h, few⟩
  · simp only [chargeMiss, h, countUp, Config.maxMisses]
  · simp only [chargeMiss, h, countUp, Config.maxMisses]
  · simp only [chargeMiss, h, countUp, Config.maxMisses, Nat.ne_of_lt few, if_false]

theorem chargeMiss_third (h : (s.node q).state = .ready) (third : min 3 ((s.node q).misses + 1) = 3) :
    chargeMiss q s = loseNode q s := by
  rw [chargeMiss, h]
  exact if_pos third

/-! ### The far side of a lost node (R139) -/

/-- Node k, with the record y, takes serving end CB when the lost node q cuts it off from CA. -/
def switchAs (q k : Position) (y : Node) (u : State) : State :=
  if q < k ∧ y.state ≠ .absent ∧ y.servingEnd = .ca then
    nodeChange k y.state y.state .cb (u.setNode k { y with servingEnd := .cb })
  else u

theorem switchEnd_eq (q : Position) (u : State) (k : Position) : switchEnd q k u = switchAs q k (u.node k) u := rfl

theorem node_switchAs (q k : Position) (y : Node) (u : State) (j : Position) :
    (switchAs q k y u).node j =
      if j = k ∧ q < k ∧ y.state ≠ .absent ∧ y.servingEnd = .ca then { y with servingEnd := .cb } else u.node j := by
  rw [switchAs]
  split_ifs with cut both both
  · rw [node_nodeChange, State.node_setNode, if_pos both.1]
  · rw [node_nodeChange, State.node_setNode, if_neg fun here => both ⟨here, cut⟩]
  · exact absurd both.2 cut
  · rfl

theorem node_foldl_switchAs (q : Position) (s : State) (l : List Position) (u : State) (j : Position) :
    (l.foldl (fun u k => switchAs q k (s.node k) u) u).node j =
      if j ∈ l ∧ q < j ∧ (s.node j).state ≠ .absent ∧ (s.node j).servingEnd = .ca then
        { s.node j with servingEnd := .cb }
      else u.node j := by
  induction l generalizing u with
  | nil => simp
  | cons k l ih =>
    rw [List.foldl_cons, ih, node_switchAs]
    by_cases here : j = k
    · subst here
      simp only [List.mem_cons_self, true_and]
      split_ifs <;> simp_all
    · simp [here]

/-! ### A node is lost (R137, R139) -/

/-- Node q is LOST and told, and no other node is switched yet. -/
def markLost (q : Position) (s : State) : State :=
  nodeChange q .ready .lost (s.node q).servingEnd (s.setNode q { s.node q with state := .lost, misses := 3 })

theorem node_markLost (q : Position) (s : State) (k : Position) :
    (markLost q s).node k = if k = q then { s.node q with state := .lost, misses := 3 } else s.node k := by
  rw [markLost, node_nodeChange, State.node_setNode]

theorem loseNode_alone (h : s.chain.mode = .line ∨ (s.node q).servingEnd = .cb) : loseNode q s = markLost q s := by
  refine if_neg ?_
  rintro ⟨ring, ca⟩
  rcases h with line | cb
  · exact nomatch line.symm.trans ring
  · exact nomatch cb.symm.trans ca

/-- The switches concern nodes beyond q, whose records the loss of q has not written. -/
theorem switchAs_markLost (q : Position) (s : State) (k : Position) (u : State) :
    switchAs q k ((markLost q s).node k) u = switchAs q k (s.node k) u := by
  rw [node_markLost]
  split_ifs with here
  · subst here
    rw [switchAs, switchAs, if_neg fun cut => lt_irrefl k cut.1, if_neg fun cut => lt_irrefl k cut.1]
  · rfl

theorem loseNode_ring (ring : s.chain.mode = .ring) (ca : (s.node q).servingEnd = .ca) :
    loseNode q s = (List.finRange 32).foldl (fun u k => switchAs q k (s.node k) u) (markLost q s) := by
  have apart : ∀ u k y j, j ≠ k → (switchAs q k y u).node j = u.node j := fun u k y j other => by
    rw [node_switchAs, if_neg fun here => other here.1]
  have before := foldl_reads_before (switchEnd_eq q) apart (List.nodup_finRange 32) (s := markLost q s) fun _ _ => rfl
  simp only [switchAs_markLost] at before
  exact (if_pos ⟨ring, ca⟩).trans before

theorem node_loseNode_self (q : Position) (s : State) :
    (loseNode q s).node q = { s.node q with state := .lost, misses := 3 } := by
  by_cases cut : s.chain.mode = .ring ∧ (s.node q).servingEnd = .ca
  · rw [loseNode_ring cut.1 cut.2, node_foldl_switchAs, if_neg fun here => lt_irrefl q here.2.1, node_markLost,
      if_pos rfl]
  · rw [show loseNode q s = markLost q s from if_neg cut, node_markLost, if_pos rfl]

/-- A node beyond the lost one that CB serves already stays as it is. -/
theorem node_loseNode_ring (ring : s.chain.mode = .ring) (ca : (s.node q).servingEnd = .ca) {k : Position} (other : k ≠ q) :
    (loseNode q s).node k =
      if q < k ∧ (s.node k).state ≠ .absent then { s.node k with servingEnd := .cb } else s.node k := by
  rw [loseNode_ring ring ca, node_foldl_switchAs, node_markLost, if_neg other]
  cases served : (s.node k).servingEnd with
  | ca => simp only [List.mem_finRange, true_and, and_true]
  | cb =>
    have same : { s.node k with servingEnd := .cb } = s.node k := by rw [← served]
    simp only [reduceCtorEq, and_false, same, ite_self]

/-- Settles O42: what hearing a node and charging it a miss make of its record in each state, and at the third miss of a READY
node the switch of its far side in RING mode. -/
theorem nodesAreHeardAndLost : Obligations.NodesAreHeardAndLost := by
  intro q s x up
  refine ⟨fun old new e => rfl, fun absent => ⟨hear_absent absent, chargeMiss_absent absent⟩, hear_present, hear_lost,
    chargeMiss_counted, fun ready third => ?_⟩
  intro t
  have lost : t = loseNode q s := chargeMiss_third ready third
  rw [lost]
  refine ⟨node_loseNode_self q s, loseNode_alone, fun ring ca k other => node_loseNode_ring ring ca other,
    fun ring ca => ?_⟩
  have told := loseNode_ring ring ca
  rw [markLost, ca] at told
  exact told

end Sys2Proof.Machine
end

section
/-! SUPPORT. SENSE: the fields of its code byte, the goal and the period it counts for, and the record it is counted on. -/

-- One theorem after the other: each elaboration task that runs beside another takes a stack from the check's memory limit.
set_option Elab.async false

namespace Sys2Proof.Machine

variable {s : State} {q : Position} {g : GoalSlot} {a : Alliance} {p : Period} {code : Byte}

/-! ### The code byte (01, Chain messages) -/

theorem senseDelta_eq (code : Byte) : senseDelta code = code.toNat % 16 := by
  simp [senseDelta, BitVec.extractLsb'_toNat]

theorem senseAlliance_eq (h : a.val = code.toNat / 16 % 4) : senseAlliance code = a := by
  refine Fin.ext ?_
  simp [senseAlliance, BitVec.extractLsb'_toNat, Nat.shiftRight_eq_div_pow, h]

theorem senseSensor_eq (code : Byte) : senseSensor code = if code.toNat < 128 then .main else .check := by
  have high : code.getLsbD 7 = decide (128 ≤ code.toNat) := BitVec.msb_eq_decide code
  rw [senseSensor, high]
  by_cases main : code.toNat < 128
  · rw [if_pos main, decide_eq_false (by omega)]
    rfl
  · rw [if_neg main, decide_eq_true (by omega)]
    rfl

/-! ### What a SENSE counts for (R176, R177) -/

theorem goalAt_eq_some (here : (s.goal g).position = some q) (first : ∀ j, j < g → ¬(s.goal j).position = some q) :
    s.goalAt q = some g :=
  find?_finRange_eq_some (decide_eq_true here) fun j lt found => first j lt (of_decide_eq_true found)

theorem goalAt_eq_none (h : ∀ g, ¬(s.goal g).position = some q) : s.goalAt q = none :=
  find?_finRange_eq_none fun g found => h g (of_decide_eq_true found)

/-! ### The count (R178) -/

theorem sense_eq (x : TallyRecord) (code : Byte) :
    x.sense (senseSensor code) (senseDelta code) =
      let state := if x.state = .ruled then TallyState.ruled else .opened
      if code.toNat < 128 then { x with main := min 255 (x.main + code.toNat % 16), state }
      else { x with check := min 255 (x.check + code.toNat % 16), state } := by
  rw [senseSensor_eq, senseDelta_eq]
  by_cases ruled : x.state = .ruled <;> split_ifs <;> simp [TallyRecord.sense, ruled, countUp, Config.maxTally]

theorem deliverSense_discarded (h : s.goalAt q = none ∨ s.map.hidden q = true ∨ s.sensePeriod = none) :
    deliverSense q code s = s := by
  unfold deliverSense
  split
  · next goal shown period =>
    rcases h with none_ | hidden | none_
    · exact nomatch goal.symm.trans none_
    · exact nomatch shown.symm.trans hidden
    · exact nomatch period.symm.trans none_
  · rfl

theorem deliverSense_accepted (goal : s.goalAt q = some g) (shown : s.map.hidden q = false)
    (period : s.sensePeriod = some p) :
    deliverSense q code s =
      (s.setRecord g (senseAlliance code) p
        ((s.record g (senseAlliance code) p).sense (senseSensor code) (senseDelta code))).setSettle g
        (some (s.goal g).settleTime) := by
  simp only [deliverSense, goal, shown, period]

/-! ### The arrival (R136, R153) -/

theorem exec_sense {e : ChainEnd} {position : Byte} (place : position.toNat = q.val + 1) (counts : code.toNat % 16 ≠ 0) :
    exec (.sense e position code) s = .next (takeSense q code s) := by
  change execSense e position code s = _
  rw [execSense, positionOf, ofNum_of q place]
  exact if_neg (by rwa [senseDelta_eq])

theorem hear_goalAt (q k : Position) (s : State) : (hear q s).goalAt k = s.goalAt k := by
  rw [State.goalAt, hear_tally]
  rfl

theorem hear_sensePeriod (q : Position) (s : State) : (hear q s).sensePeriod = s.sensePeriod := by
  simp only [State.sensePeriod, hear_control, hear_tally]

theorem hear_record (q : Position) (s : State) (g : GoalSlot) (a : Alliance) (p : Period) :
    (hear q s).record g a p = s.record g a p := by
  rw [State.record, hear_tally]
  rfl

theorem hear_goal (q : Position) (s : State) (g : GoalSlot) : (hear q s).goal g = s.goal g := by
  rw [State.goal, hear_tally]
  rfl

theorem takeSense_absent (absent : (s.node q).state = .absent) : takeSense q code s = s := if_pos absent

section
variable (present : (s.node q).state ≠ .absent)
include present

theorem takeSense_discarded (h : s.goalAt q = none ∨ s.map.hidden q = true ∨ s.sensePeriod = none) :
    takeSense q code s = hear q s :=
  (if_neg present).trans (deliverSense_discarded (by rwa [hear_goalAt, hear_map, hear_sensePeriod]))

/-- Hearing the node leaves the tally, the map and the phase as they are, so that they may be read before. -/
theorem takeSense_accepted (goal : s.goalAt q = some g) (shown : s.map.hidden q = false) (period : s.sensePeriod = some p) :
    takeSense q code s =
      ((hear q s).setRecord g (senseAlliance code) p
        ((s.record g (senseAlliance code) p).sense (senseSensor code) (senseDelta code))).setSettle g
        (some (s.goal g).settleTime) := by
  rw [takeSense, if_neg present, deliverSense_accepted (by rwa [hear_goalAt]) (by rwa [hear_map])
    (by rwa [hear_sensePeriod]), hear_record, hear_goal]

end

/-- Settles O43: a SENSE of an ABSENT node changes nothing; any other is heard, and counted where a goal, the map and the period
let it. -/
theorem senseCountsAtItsGoal : Obligations.SenseCountsAtItsGoal := by
  intro e position code q s place counts
  rw [exec_sense place counts]
  refine ⟨fun absent => congrArg _ (takeSense_absent absent), fun present => ?_⟩
  intro t goal current period
  have attributed : period = s.sensePeriod := by
    simp only [period, current, State.sensePeriod]
    rcases s.control.phase with _ | _ | r | ⟨r, _⟩ | r
    · rfl
    · rfl
    · cases r <;> rfl
    · cases r <;> rfl
    · cases s.tally.final <;> cases r <;> rfl
  refine ⟨fun discarded => congrArg _ (takeSense_discarded present ?_), fun g a p here first shown at_ alliance => ?_⟩
  · exact discarded.imp goalAt_eq_none (.imp_right attributed.symm.trans)
  · rw [takeSense_accepted present (goalAt_eq_some here first) shown (attributed.symm.trans at_), senseAlliance_eq alliance,
      sense_eq]

end Sys2Proof.Machine
end

section
/-! SUPPORT. The transactions that a reset aborts, RESET_NODE, and LINK_RESET of a chain end. -/

-- One theorem after the other: each elaboration task that runs beside another takes a stack from the check's memory limit.
set_option Elab.async false

namespace Sys2Proof.Machine

variable {r : Request} {s u : State} {q : Position} {e : ChainEnd}

/-! ### The transactions that a reset aborts (R149, R151) -/

@[simp] theorem TagRecord.tell_chain (x : TagRecord) (outcome : AnswerCode) (value : BitVec 16) (s : State) :
    (x.tell outcome value s).chain = s.chain := by
  unfold TagRecord.tell
  split
  · exact answer_chain s _ _
  · rfl
  · exact laterResult_chain s _ _ _

/-- Tag t, with the record that it holds, is aborted where the record has the property. -/
def abortAs (hit : TagRecord → Bool) (t : TagId) (held : Option TagRecord) (u : State) : State :=
  match held with
  | some y => if hit y then y.tell .aborted 0 (u.setTag t none) else u
  | none => u

theorem abortAs_eq (hit : TagRecord → Bool) (u : State) (t : TagId) :
    (if (u.tag t).any hit then endTransaction t .aborted 0 u else u) = abortAs hit t (u.tag t) u := by
  cases record : u.tag t with
  | none => rfl
  | some y => rw [endTransaction_eq record, Option.any_some, abortAs]

theorem tag_abortAs (hit : TagRecord → Bool) (u : State) (t : TagId) (held : Option TagRecord) {j : TagId} (other : j ≠ t) :
    (abortAs hit t held u).tag j = u.tag j := by
  unfold abortAs
  split
  · split
    · rw [State.tag, TagRecord.tell_chain]
      exact (State.tag_setTag u t none j).trans (if_neg other)
    · rfl
  · rfl

/-- The aborts may as well read the tag records of the state before them. -/
theorem abortTags_eq (hit : TagRecord → Bool) (same : ∀ t, u.tag t = s.tag t) :
    abortTags hit u = (List.finRange 8).foldl (fun u t => abortAs hit t (s.tag t) u) u :=
  foldl_reads_before (read := State.tag) (write := abortAs hit) (abortAs_eq hit)
    (fun u t held _ other => tag_abortAs hit u t held other) (List.nodup_finRange 8) fun t _ => same t

/-! ### RESET_NODE (R149) -/

theorem sendOn_setNode (e : ChainEnd) (x : ChainMessage) (q : Position) (y : Node) (s : State) :
    sendOn e x (s.setNode q y) = (sendOn e x s).setNode q y := by cases e <;> rfl

theorem sendSignal_setNode (type : ChainType) (q : Position) (y : Node) (s : State) :
    sendSignal type (s.setNode q y) = (sendSignal type s).setNode q y := by
  simp only [sendSignal_eq, State.setNode_chain_mode, sendOn_setNode]
  split_ifs <;> rfl

theorem State.setNode_setNode (s : State) (q : Position) (x y : Node) : (s.setNode q x).setNode q y = s.setNode q y := by
  simp only [State.setNode, Table.set_set]

/-- The node wakes to READY with its record else as it was: neither the message to it nor the aborts write it. -/
theorem resetNode_eq {free : State}
    (aborted : abortTags (fun y => decide (y.position = q)) (sendOn (s.node q).servingEnd (addressedMessage .resetNode q) s)
      = free) :
    resetNode q s =
      let woken := (sendSignal .wake free).setNode q { s.node q with state := .ready, misses := 0 }
      let still := if s.chain.halted then sendSignal .halt woken else woken
      if (s.node q).state = .ready then still else nodeChange q (s.node q).state .ready (s.node q).servingEnd still := by
  have record : free.node q = s.node q := by
    rw [State.node, ← aborted, abortTags_chain_nodes, sendOn_chain_nodes]
    rfl
  simp only [resetNode, aborted, record, sendSignal_setNode, State.node_setNode_self, State.setNode_setNode]

theorem exec_resetNode (h : r.args.length ≤ 46) (given : 1 ≤ r.args.length) :
    exec (.resetNode r) s = .next (reply 0x53 r (ownResetNode r (mgmtArrives s))) := takeRequest_taken h given

theorem ownResetNode_locked (h : ¬(s.control.phase.isBetween = true ∨ s.control.phase.isPaused = true)) :
    ownResetNode r s = refuse .locked s := if_pos (by simpa using h)

section
variable (taken : s.control.phase.isBetween = true ∨ s.control.phase.isPaused = true)
include taken

theorem ownResetNode_bad (h : byteAt r.args 0 < 1 ∨ 32 < byteAt r.args 0) : ownResetNode r s = refuse .badArgument s := by
  rw [ownResetNode, (Bool.or_eq_true _ _).mpr taken, ofNum_bad h]
  rfl

theorem ownResetNode_named (named : byteAt r.args 0 = q.val + 1) :
    ownResetNode r s =
      if s.chain.census ≠ none then refuse .busy s
      else if (s.node q).state = .absent then refuse .state s
      else done (resetNode q s) := by
  rw [ownResetNode, (Bool.or_eq_true _ _).mpr taken, ofNum_of q named]
  rfl

end

/-! ### LINK_RESET of a chain end (R151) -/

theorem ChainSide.cutOff_eq (x : ChainSide) :
    x.cutOff =
      let kept := (x.onLine.toList ++ x.waiting).filter fun m => m.type ≠ .command ∧ m.type ≠ .probe
      { onLine := kept.head?, waiting := kept.tail } := by
  have untracked : (fun m : ChainMessage => !m.isTracked) = fun m => decide (m.type ≠ .command ∧ m.type ≠ .probe) := by
    funext m
    simp [ChainMessage.isTracked]
  rw [ChainSide.cutOff, untracked]
  split
  · next none_ => rw [none_]; rfl
  · next some_ => rw [some_]; rfl

theorem abandonProbe_none (h : ∀ c, s.chain.census = some c → c.pass ≠ e) : abandonProbe e s = s := by
  have none_ : s.chain.census.filter (fun c => decide (c.pass = e)) = none :=
    Option.filter_eq_none_iff.mpr fun c census pass => h c census (of_decide_eq_true pass)
  rw [abandonProbe, none_]

theorem abandonProbe_some {c : Census} (census : s.chain.census = some c) (pass : c.pass = e) :
    abandonProbe e s = continueCensus c s := by
  rw [abandonProbe, census, Option.filter_some, if_pos (decide_eq_true pass)]

/-- None of the steps before it writes the flag and the mode by which HALT is sent again. -/
theorem resetChainEnd_eq {t : State}
    (after : abandonProbe e (abortTags (fun y => decide (y.sentOn = e)) (s.setSide e (s.side e).cutOff)) = t) :
    resetChainEnd e s =
      if s.chain.halted ∧ (e = .ca ∨ s.chain.mode = .ring) then sendOn e (signalMessage .halt) t else t := by
  subst after
  simp only [resetChainEnd, resendHalt, abandonProbe_chain_halted, abandonProbe_chain_mode, abortTags_chain_halted,
    abortTags_chain_mode, State.setSide_chain_halted, State.setSide_chain_mode]

theorem ownLinkReset_end (named : byteAt r.args 0 = 5 + e.code) (s : State) :
    ownLinkReset r s = done (resetChainEnd e s) := by
  cases e <;> rw [ownLinkReset, named] <;> rfl

/-- Settles O44: RESET_NODE by its checks in order and the state of the node; LINK_RESET of a chain end by whether the probe in
flight is on it. -/
theorem nodesAndEndsAreReset : Obligations.NodesAndEndsAreReset := by
  intro r s given len m reset taken plain signal ended aborted
  have answered : ∀ {o}, ownResetNode r m = o → reset o := fun h => h ▸ exec_resetNode len given
  have told : ∀ t y u, ended t y u = y.tell .aborted 0 (u.setTag t none) := fun t y u => by
    dsimp only [ended, TagRecord.tell]
    rcases y.origin with ⟨_ | _, _⟩ | _ <;> rfl
  have freed : ∀ hit u, (∀ t, u.tag t = s.tag t) → abortTags hit u = aborted hit u := fun hit u same => by
    rw [abortTags_eq hit same]
    simp only [aborted, told]
    rfl
  have signalled : ∀ type u, sendSignal type u = signal type u := sendSignal_eq
  refine ⟨fun locked => answered (ownResetNode_locked locked), fun taken bad => answered (ownResetNode_bad (s := m) taken bad),
    fun q taken named => ?_, fun e named => ?_⟩
  · have checks := ownResetNode_named (s := m) taken named
    refine ⟨fun busy => answered (checks.trans (if_pos busy)), fun idle absent => ?_, fun idle present => ?_⟩
    · exact answered (checks.trans ((if_neg (not_not_intro idle)).trans (if_pos absent)))
    · intro sent free woken still
      have free_eq : abortTags (fun y => decide (y.position = q)) sent = free :=
        freed _ sent fun t => by simp [State.tag, sent, m]
      refine answered (checks.trans ((if_neg (not_not_intro idle)).trans ((if_neg present).trans ?_)))
      rw [resetNode_eq free_eq]
      simp only [signalled]
      rfl
  · intro kept cut free still link
    have cutOff : m.setSide e (m.side e).cutOff = cut := by rw [ChainSide.cutOff_eq, mgmtArrives_side]
    have free_eq : abortTags (fun y => decide (y.sentOn = e)) cut = free := freed _ cut fun t => by simp [State.tag, cut, m]
    have linked : ∀ {t}, abandonProbe e free = t → link (still t) := fun after => by
      rw [← free_eq, ← cutOff] at after
      change exec (.linkReset r) s = _
      rw [exec_linkReset given len, ownLinkReset_end named, resetChainEnd_eq after]
      rfl
    have census : free.chain.census = s.chain.census := by rw [← free_eq]; simp [cut, m]
    exact ⟨fun elsewhere => linked (abandonProbe_none (census ▸ elsewhere)),
      fun c probing pass => linked (abandonProbe_some (census.trans probing) pass)⟩

end Sys2Proof.Machine
end

section
/-! SUPPORT. The requests that write limits and lengths, and READ_STATUS: the ranges that their owners check, and the bytes of
the status table. -/

-- One theorem after the other: each elaboration task that runs beside another takes a stack from the check's memory limit.
set_option Elab.async false

namespace Sys2Proof.Machine

section
variable {r : Request} {s : State}

/-! ### STALE_LIMIT, SILENCE_LIMIT and PHASE_TIMES (R35, R170, R171) -/

theorem exec_staleLimit (h : r.args.length ≤ 46) (n : 2 ≤ r.args.length) :
    exec (.staleLimit r) s = .next (reply 0x16 r (ownStaleLimit r (mgmtArrives s))) := takeRequest_taken h n

theorem exec_silenceLimit (h : r.args.length ≤ 46) (n : 2 ≤ r.args.length) :
    exec (.silenceLimit r) s = .next (reply 0x67 r (ownSilenceLimit r (mgmtArrives s))) := takeRequest_taken h n

theorem exec_phaseTimes (h : r.args.length ≤ 46) (n : 12 ≤ r.args.length) :
    exec (.phaseTimes r) s = .next (reply 0x60 r (ownPhaseTimes r (mgmtArrives s))) := takeRequest_taken h n

/-- The restart at the new limit replaces the silence timer that the request's own frame had started (R170). -/
theorem restartSilence_newLimit (limit : Nat) :
    restartSilence ((mgmtArrives s).setControl { (mgmtArrives s).control with silenceLimit := limit })
      = { mgmtArrives s with control := { s.control with
            silenceLimit := limit, silence := if limit = 0 then none else some limit } } := rfl

theorem ownSilenceLimit_arrived : ownSilenceLimit r (mgmtArrives s) =
    if (1 ≤ wordAt r.args 0 ∧ wordAt r.args 0 < 100) ∨ 5000 < wordAt r.args 0 then refuse .badArgument (mgmtArrives s)
    else done { mgmtArrives s with control := { s.control with
      silenceLimit := wordAt r.args 0, silence := if wordAt r.args 0 = 0 then none else some (wordAt r.args 0) } } := by
  rw [ownSilenceLimit, restartSilence_newLimit]

/-- The lengths that PHASE_TIMES carries lie in their ranges (R171). -/
def PhaseTimesFit (r : Request) : Prop :=
  wordAt r.args 0 ≤ 60000 ∧ wordAt r.args 2 ≤ 15000 ∧ 1000 ≤ longAt r.args 4 ∧ longAt r.args 4 ≤ 300000
    ∧ longAt r.args 8 ≤ longAt r.args 4

theorem ownPhaseTimes_locked (h : s.control.phase.isBetween = false) : ownPhaseTimes r s = refuse .locked s :=
  if_pos (by rw [h]; rfl)

theorem ownPhaseTimes_bad (h : s.control.phase.isBetween = true) (bad : ¬PhaseTimesFit r) :
    ownPhaseTimes r s = refuse .badArgument s := by
  rw [ownPhaseTimes, if_neg (by simp [h])]
  exact if_pos (by simp only [PhaseTimesFit] at bad; omega)

theorem ownPhaseTimes_taken (h : s.control.phase.isBetween = true) (fits : PhaseTimesFit r) :
    ownPhaseTimes r s = done (s.setControl { s.control with
      autoLength := wordAt r.args 0, transitLength := wordAt r.args 2, driverLength := longAt r.args 4
      endgameLength := longAt r.args 8 }) := by
  rw [ownPhaseTimes, if_neg (by simp [h])]
  exact if_neg (by simp only [PhaseTimesFit] at fits; omega)

/-! ### READ_STATUS (R172) -/

theorem exec_readStatus (h : r.args.length ≤ 46) :
    exec (.readStatus r) s = .next (reply 0x01 r (ownReadStatus (mgmtArrives s))) :=
  takeRequest_taken (code := 0x01) h (Nat.zero_le _)

/-- After a MGMT frame the silence timer stands at its limit, where limit 0 reads as the stopped timer does (R169). -/
theorem mgmtArrives_silence_getD : (mgmtArrives s).control.silence.getD 0 = s.control.silenceLimit := by
  change (if s.control.silenceLimit = 0 then none else some s.control.silenceLimit).getD 0 = _
  split
  · next zero => rw [zero]; rfl
  · rfl

theorem be16_length (k : Nat) : (be16 k).length = 2 := rfl

theorem be32_length (k : Nat) : (be32 k).length = 4 := rfl

theorem byte_flag (b : Bool) : byte b.toNat = if b then 1 else 0 := by cases b <;> rfl

theorem radioDiscards_eq (s : State) : (s.framers.rl.items.flatMap fun x => be16 x.discards) =
    be16 (s.framers.rl.get 0).discards ++ be16 (s.framers.rl.get 1).discards ++ be16 (s.framers.rl.get 2).discards
      ++ be16 (s.framers.rl.get 3).discards := by
  rw [Table.items_eq_map_get, finRange_four]
  rfl

theorem stationCount_eq (s : State) (x : StationState) :
    s.stationCount x = (List.finRange 32).countP fun n => decide ((s.station n).state = x) := Table.count_eq_countP _ _

theorem nodeCount_eq (s : State) (x : NodeState) :
    s.nodeCount x = (List.finRange 32).countP fun q => decide ((s.node q).state = x) := Table.count_eq_countP _ _

end

theorem Running.byte_code (p : Running) :
    byte p.code = match p with | .auto => 2 | .transit => 3 | .driver => 4 | .endgame => 5 := by cases p <;> rfl

theorem Phase.byte_code (p : Phase) :
    byte p.code = match p with
      | .setup => 0 | .staged => 1 | .running p => byte p.code | .paused _ _ => 6 | .ended _ => 7 := by cases p <;> rfl

theorem Phase.causeByte_eq (p : Phase) :
    p.causeByte = match p with | .paused _ .request => 1 | .paused _ .silence => 2 | _ => 0 := by
  obtain _ | _ | _ | ⟨_, _ | _⟩ | _ := p <;> rfl

/-- The status table of a state whose silence timer has just been restarted, field by field. -/
theorem statusData_arrived (s : State) :
    let c := s.control
    let stations := fun x : StationState => byte ((List.finRange 32).countP fun n => decide ((s.station n).state = x))
    let nodes := fun x : NodeState => byte ((List.finRange 32).countP fun q => decide ((s.node q).state = x))
    statusData (mgmtArrives s) =
      [byte c.phase.code, c.phase.fromByte] ++ be32 c.timer ++ [c.phase.causeByte, if s.reportsLost then 1 else 0]
      ++ be16 s.framers.ml.discards ++ be16 (s.framers.rl.get 0).discards ++ be16 (s.framers.rl.get 1).discards
      ++ be16 (s.framers.rl.get 2).discards ++ be16 (s.framers.rl.get 3).discards
      ++ [stations .vacant, stations .enrolled, stations .linked, stations .stale, stations .disabled, stations .ejected]
      ++ [nodes .absent, nodes .present, nodes .ready, nodes .lost]
      ++ [if s.chain.halted then 1 else 0]
      ++ be16 c.silenceLimit ++ be16 c.silenceLimit ++ be16 c.autoLength ++ be16 c.transitLength ++ be32 c.driverLength
      ++ be32 c.endgameLength := by
  simp only [statusData, mgmtArrives_silence_getD, byte_flag, radioDiscards_eq, stationCount_eq, nodeCount_eq, List.map_cons,
    List.map_nil, List.append_assoc]
  rfl

/-- Settles O11: the request is taken, and its owner answers the table and clears the flag. -/
theorem readStatusReadsAndClearsTheFlag : Obligations.ReadStatusReadsAndClearsTheFlag := by
  intro r s len c flag code stations nodes data
  refine ⟨by simp [data, be16_length, be32_length], ?_⟩
  have answered : statusData (mgmtArrives s) = data := by
    rw [statusData_arrived, Phase.causeByte_eq, Phase.byte_code]
    simp only [Phase.fromByte, Running.byte_code] <;> rfl
  rw [exec_readStatus len, ownReadStatus, answered] <;> rfl

/-- Settles O49: each request is taken, and its owner checks the ranges and writes. -/
theorem limitsAndLengthsAreWrittenInTheirRanges : Obligations.LimitsAndLengthsAreWrittenInTheirRanges := by
  intro r s len m word long times fits
  refine ⟨fun given => ⟨exec_staleLimit len given, ?_⟩, fun given => ?_⟩
  · rw [exec_silenceLimit len given, ownSilenceLimit_arrived]
  · have answered : ∀ {o}, ownPhaseTimes r m = o → times o := fun h => h ▸ exec_phaseTimes len given
    exact ⟨fun between => answered (ownPhaseTimes_locked between),
      fun between bad => answered (ownPhaseTimes_bad (s := m) between bad),
      fun between fit => answered (ownPhaseTimes_taken (s := m) between fit)⟩

end Sys2Proof.Machine
end

section
/-! SUPPORT. The expiries of the phase controller: the running phases that are passed through, and the phase that an expiry
enters. -/

-- One theorem after the other: each elaboration task that runs beside another takes a stack from the check's memory limit.
set_option Elab.async false

namespace Sys2Proof.Machine

variable {s : State} {p : Running}

/-! ### Running phases that are passed through (R157, R158) -/

/-- How many running phases are left to pass through: each gives way to one with fewer left. -/
def Phase.left : Phase → Nat
  | .running .auto => 4
  | .running .transit => 3
  | .running .driver => 2
  | .running .endgame => 1
  | _ => 0

theorem PhaseControl.left_successor (c : PhaseControl) (p : Running) : (c.successor p).1.left + 1 = (Phase.running p).left := by
  cases p <;> rfl

theorem Phase.left_le (p : Phase) : p.left ≤ 4 := by
  obtain _ | _ | (_ | _ | _ | _) | _ | _ := p <;> simp [Phase.left]

theorem passThroughIn_still (k : Nat) (h : s.control.phase.isRunning = false ∨ s.control.timer ≠ 0) :
    passThroughIn k s = s := by
  cases k with
  | zero => rfl
  | succ k =>
    rw [passThroughIn]
    split
    · next p running =>
      rcases h with still | counting
      · rw [running] at still
        exact nomatch still
      · exact if_neg counting
    · rfl

theorem passThroughIn_expired (k : Nat) (running : s.control.phase = .running p) (zero : s.control.timer = 0) :
    passThroughIn (k + 1) s = passThroughIn k (enterPhase (s.control.successor p).1 (s.control.successor p).2 s) := by
  rw [passThroughIn, running]
  exact if_pos zero

/-- As many steps as there are running phases left are enough. -/
theorem passThroughIn_succ {k : Nat} (enough : s.control.phase.left ≤ k) : passThroughIn (k + 1) s = passThroughIn k s := by
  induction k generalizing s with
  | zero =>
    refine passThroughIn_still 1 (.inl ?_)
    cases h : s.control.phase with
    | running p => cases p <;> simp [h, Phase.left] at enough
    | _ => rfl
  | succ k ih =>
    by_cases expired : s.control.phase.isRunning = true ∧ s.control.timer = 0
    · obtain ⟨running, zero⟩ := expired
      obtain ⟨p, running⟩ : ∃ p, s.control.phase = .running p := by
        cases h : s.control.phase with
        | running p => exact ⟨p, rfl⟩
        | _ => simp [h, Phase.isRunning] at running
      have fewer := s.control.left_successor p
      rw [running] at enough
      rw [passThroughIn_expired _ running zero, passThroughIn_expired _ running zero]
      exact ih (by rw [enterPhase_control_phase]; omega)
    · have still : s.control.phase.isRunning = false ∨ s.control.timer ≠ 0 := by
        rwa [not_and_or, Bool.not_eq_true] at expired
      rw [passThroughIn_still _ still, passThroughIn_still _ still]

theorem passThrough_expired (running : s.control.phase = .running p) (zero : s.control.timer = 0) :
    passThrough s = passThrough (enterPhase (s.control.successor p).1 (s.control.successor p).2 s) := by
  have fewer := s.control.left_successor p
  have most := (Phase.running p).left_le
  rw [passThrough, passThroughIn_expired 3 running zero]
  exact (passThroughIn_succ (by rw [enterPhase_control_phase]; omega)).symm

/-! ### The expiries -/

theorem successor_elapse (n : Nat) (s : State) : (elapse n s).control.successor = s.control.successor := by
  funext p
  cases p <;> simp [PhaseControl.successor]

theorem exec_phaseExpiry_running (running : s.control.phase = .running p) :
    exec .phaseExpiry s = .next (passThrough
      (enterPhase (s.control.successor p).1 (s.control.successor p).2 (elapse s.control.timer s))) := by
  have counts : s.control.phase.isRunning = true := by rw [running]; rfl
  have zero : (elapse s.control.timer s).control.timer = 0 := by rw [elapse_timer_of_running _ counts, Nat.sub_self]
  rw [← successor_elapse s.control.timer s, ← passThrough_expired (by simp [running]) zero]
  exact if_pos counts

theorem exec_phaseExpiry_still (still : s.control.phase.isRunning = false) : exec .phaseExpiry s = .next s :=
  if_neg (by simp [still])

theorem exec_silenceExpiry_none (stopped : s.control.silence = none) : exec .silenceExpiry s = .next s := by
  change execSilenceExpiry s = _
  rw [execSilenceExpiry, stopped]

theorem exec_silenceExpiry_some {left : Nat} (counting : s.control.silence = some left) :
    exec .silenceExpiry s = .next (silenceExpired (elapse left s)) := by
  change execSilenceExpiry s = _
  rw [execSilenceExpiry, counting]

theorem silenceExpired_running (running : s.control.phase = .running p) :
    silenceExpired s =
      enterPhase (.paused p .silence) s.control.timer (s.setControl { s.control with silence := none }) := by
  rw [silenceExpired, running]
  rfl

theorem silenceExpired_still (still : s.control.phase.isRunning = false) :
    silenceExpired s = s.setControl { s.control with silence := none } := by
  rw [silenceExpired]
  split
  · next p running => exact nomatch (running ▸ still : (Phase.running p).isRunning = false)
  · rfl

/-- Settles O48: the phase timer runs out in a running phase alone, which gives way to its successor; the silence timer pauses
a running match. -/
theorem phaseAndSilenceExpire : Obligations.PhaseAndSilenceExpire := by
  intro s c next
  have successor : ∀ p, c.successor p = next p := fun p => by cases p <;> rfl
  refine ⟨passThroughIn_still 4, fun p running zero => ?_, fun p running => ?_, exec_phaseExpiry_still,
    exec_silenceExpiry_none, fun left counting => ⟨fun p running => ?_, fun still => ?_⟩⟩
  · rw [← successor]
    exact passThrough_expired running zero
  · rw [← successor]
    exact exec_phaseExpiry_running running
  · have counts : s.control.phase.isRunning = true := by rw [running]; rfl
    rw [exec_silenceExpiry_some counting, silenceExpired_running (by rw [elapse_control_phase, running]),
      elapse_timer_of_running left counts]
    rfl
  · rw [exec_silenceExpiry_some counting, silenceExpired_still (by rw [elapse_control_phase, still])]
    rfl

end Sys2Proof.Machine
end

section
/-! SUPPORT. A change of phase: how it is told, what the entry effects add to the areas and to the counts of output, the held
flags, the messages on the chain ends, and what the final settle leaves of the tally. -/

-- One theorem after the other: each elaboration task that runs beside another takes a stack from the check's memory limit.
set_option Elab.async false

namespace Sys2Proof.Machine

variable {s t : State}

/-! ### Output alone -/

/-- Frames are added at the tails of areas alone, and of the ports and counts of output only discards and the reports-lost flag
move, as for an offer; the other blocks may change. -/
structure OutputGrows (s t : State) : Prop where
  stored : ∀ a, (s.area a).frames <+: (t.area a).frames
  port : ∀ p, t.port p = { s.port p with discards := (t.port p).discards }
  lost : s.reportsLost = true → t.reportsLost = true

namespace OutputGrows

theorem of_eq (areas : t.areas = s.areas) (framers : t.framers = s.framers) (lost : t.reportsLost = s.reportsLost) :
    OutputGrows s t where
  stored a := by rw [State.area, State.area, areas]
  port p := by cases p <;> simp only [State.port, framers]
  lost h := lost.trans h

theorem refl (s : State) : OutputGrows s s := of_eq rfl rfl rfl

theorem trans {u : State} (h : OutputGrows s t) (k : OutputGrows t u) : OutputGrows s u where
  stored a := (h.stored a).trans (k.stored a)
  port p := by rw [k.port p, h.port p]
  lost x := k.lost (h.lost x)

theorem out (h : OutputOnly s t) : OutputGrows s t where
  stored := h.stored
  port p := by
    cases p with
    | ml => simp only [State.port, h.ml]
    | rl k => exact h.radio k
  lost := h.lost

theorem foldl {α : Type} {f : State → α → State} (h : ∀ s x, OutputGrows s (f s x)) (l : List α) (s : State) :
    OutputGrows s (l.foldl f s) := by
  induction l generalizing s with
  | nil => exact refl s
  | cons x l ih => exact (h s x).trans (ih (f s x))

theorem evaluateHold (s : State) (n : StationId) : OutputGrows s (evaluateHold s n) := by
  have written : ∀ x, OutputGrows s (s.setStation n x) := fun _ => of_eq rfl rfl rfl
  simp only [Machine.evaluateHold]
  split_ifs
  · exact refl s
  · exact (written _).trans (out (.arenaTo _ _ _))
  · exact (written _).trans (out (.arenaTo _ _ _))
  · exact written _

theorem holdEntry (new : Phase) (s : State) : OutputGrows s (holdEntry new s) := by
  simp only [Machine.holdEntry]
  split
  · exact foldl evaluateHold _ s
  · exact of_eq rfl rfl rfl

theorem setTally (s : State) (x : Tally) : OutputGrows s (s.setTally x) := of_eq rfl rfl rfl

theorem compareRecord (g : GoalSlot) (s : State) (i : Alliance × Period) : OutputGrows s (compareRecord g s i) := by
  simp only [Machine.compareRecord]
  split_ifs
  · exact refl s
  · exact setTally s _
  · exact (setTally s _).trans (out (.notice _ _ _))

theorem compareConfigured (s : State) (g : GoalSlot) : OutputGrows s (compareConfigured s g) := by
  simp only [Machine.compareConfigured]
  split
  · exact foldl (compareRecord g) _ s
  · exact refl s

theorem endFinalSettle (s : State) : OutputGrows s (endFinalSettle s) :=
  ((setTally s _).trans (foldl compareConfigured _ _)).trans ((setTally _ _).trans (out (.notice _ _ _)))

theorem tallyEntry (new : Phase) (s : State) : OutputGrows s (tallyEntry new s) := by
  simp only [Machine.tallyEntry, startFinalSettle]
  split_ifs
  · exact (setTally s _).trans (endFinalSettle _)
  · exact setTally s _
  · exact refl s

end OutputGrows

/-! ### The final settle and the tally (R183, R184) -/

/-- What a comparison leaves of the tally: it writes records alone. -/
def Tally.fixed (x : Tally) : Table Goal 8 × Table Nat 4 × Table Nat 4 := (x.goals, x.bonus, x.penalty)

theorem compareRecord_tally_fixed (g : GoalSlot) (s : State) (i : Alliance × Period) :
    (compareRecord g s i).tally.fixed = s.tally.fixed := by
  simp only [compareRecord]
  split_ifs
  · rfl
  · rfl
  · rw [notice_tally]
    rfl

theorem compareConfigured_tally_fixed (s : State) (g : GoalSlot) :
    (compareConfigured s g).tally.fixed = s.tally.fixed := by
  simp only [compareConfigured]
  split
  · exact foldl_keeps (fun s => s.tally.fixed) (compareRecord_tally_fixed g) _ s
  · rfl

theorem Tally.fixed_final (x : Tally) (f : FinalSettle) : Tally.fixed { x with final := f } = x.fixed := rfl

theorem Tally.fixed_settle (x : Tally) (t : Table (Option Nat) 8) : Tally.fixed { x with settle := t } = x.fixed := rfl

theorem endFinalSettle_tally_fixed (s : State) : (endFinalSettle s).tally.fixed = s.tally.fixed := by
  have compared := foldl_keeps (fun s => s.tally.fixed) compareConfigured_tally_fixed (List.finRange 8)
    (s.setTally { s.tally with settle := .fill 8 none })
  simp only [endFinalSettle, notice_tally, State.setTally_tally, Tally.fixed_final]
  rw [compared, State.setTally_tally, Tally.fixed_settle]

theorem endFinalSettle_tally_final (s : State) : (endFinalSettle s).tally.final = .done := by
  rw [endFinalSettle, notice_tally]
  rfl

theorem startFinalSettle_tally_fixed (s : State) : (startFinalSettle s).tally.fixed = s.tally.fixed := by
  rw [startFinalSettle]
  split
  · exact endFinalSettle_tally_fixed _
  · rfl

theorem startFinalSettle_tally_final (s : State) : (startFinalSettle s).tally.final ≠ .idle := by
  rw [startFinalSettle]
  split
  · rw [endFinalSettle_tally_final]
    nofun
  · nofun

/-! ### The held flags (R32) -/

/-- The evaluation of some robots reads nothing that it writes: phase, partner fields, and the states of the records. -/
theorem foldl_evaluateHold_station (l : List StationId) (s : State) (m : StationId) :
    (l.foldl evaluateHold s).station m = { s.station m with
      held := if m ∈ l ∧ (s.station m).isRobot = true then s.holdCondition m else (s.station m).held } := by
  induction l generalizing s with
  | nil => simp
  | cons k l ih =>
    have same := (HeldOnly.evaluateHold s k).holdCondition (by simp) m
    rw [List.foldl_cons, ih, same, evaluateHold_station]
    by_cases own : m = k
    · subst own
      by_cases robot : (s.station m).isRobot = true <;> simp_all [Station.isRobot]
    · simp [own, Station.isRobot]

theorem evaluateAll_station (s : State) (m : StationId) :
    (evaluateAll s).station m = { s.station m with
      held := if (s.station m).kind = some .robot then s.holdCondition m else (s.station m).held } := by
  rw [evaluateAll, foldl_evaluateHold_station]
  simp [Station.isRobot]

/-- Evaluations write records alone. -/
theorem evaluateHold_staleLimit (s : State) (n : StationId) : (evaluateHold s n).stations.staleLimit = s.stations.staleLimit := by
  simp only [evaluateHold]
  split_ifs
  · rfl
  · rw [arenaTo_stations]; rfl
  · rw [arenaTo_stations]; rfl
  · rfl

theorem holdEntry_staleLimit (new : Phase) (s : State) : (holdEntry new s).stations.staleLimit = s.stations.staleLimit := by
  rw [holdEntry]
  split
  · rw [evaluateAll]
    exact foldl_keeps (fun s => s.stations.staleLimit) evaluateHold_staleLimit _ s
  · rfl

/-! ### The messages on the chain ends (R140, R145) -/

/-- The messages of an end, the one on the line first. -/
def ChainSide.messages (x : ChainSide) : List ChainMessage := x.onLine.toList ++ x.waiting

theorem ChainSide.put_messages (x : ChainSide) (m : ChainMessage) : (x.put m).messages = x.messages ++ [m] := by
  rw [put_eq]
  split
  · next idle => simp [messages, idle]
  · simp [messages]

theorem sendOn_messages (e d : ChainEnd) (m : ChainMessage) (s : State) :
    ((sendOn e m s).side d).messages = (s.side d).messages ++ if d = e then [m] else [] := by
  rw [sendOn, State.side_setSide]
  split
  · next own => rw [own, ChainSide.put_messages]
  · rw [List.append_nil]

theorem sendSignal_messages (type : ChainType) (e : ChainEnd) (s : State) :
    ((sendSignal type s).side e).messages
      = (s.side e).messages ++ if e = .ca ∨ s.chain.mode = .ring then [signalMessage type] else [] := by
  rw [sendSignal_eq]
  cases e <;> cases mode : s.chain.mode <;> simp [sendOn_messages]

/-- The signal that a change of phase sends: HALT into PAUSED, RESUME out of it. -/
def phaseSignal (old new : Phase) : Option ChainType :=
  if new.isPaused then some .halt else if old.isPaused then some .resume else none

theorem chainEntry_eq (old new : Phase) (s : State) :
    chainEntry old new s = match phaseSignal old new with
      | none => s
      | some type => sendSignal type (s.setHalted new.isPaused) := by
  cases paused : new.isPaused <;> cases resumed : old.isPaused <;> simp [chainEntry, phaseSignal, paused, resumed]

theorem chainEntry_messages (old new : Phase) (e : ChainEnd) (s : State) :
    ((chainEntry old new s).side e).messages = (s.side e).messages ++ match phaseSignal old new with
      | some type => if e = .ca ∨ s.chain.mode = .ring then [signalMessage type] else []
      | none => [] := by
  rw [chainEntry_eq]
  cases phaseSignal old new with
  | none => exact (List.append_nil _).symm
  | some type => exact sendSignal_messages type e (s.setHalted new.isPaused)

/-! ### How a phase is told (R57, R159) -/

/-- The ARENA PHASE notice to all stations. -/
def phaseArena (c : PhaseControl) : Frame :=
  { source := 0, destination := 63, sequence := 0, label := 0, kind := .arena
    payload := [1, byte c.phase.code] ++ be32 c.timer ++ [0] }

/-- The PHASE_CHANGE notice. -/
def phaseReport (c : PhaseControl) : Frame :=
  { source := 0, destination := 0, sequence := 0, label := 0, kind := .report
    payload := [0x81, 0, 0, byte c.phase.code, c.phase.pausedFromByte] ++ be32 c.timer ++ [c.phase.causeByte] }

/-- The offers of the copies move no phase and no timer, so that every copy says the same. -/
theorem announcePhase_eq (s : State) : announcePhase s =
    let copy := fun k => offerRadio k .urgent none (phaseArena s.control)
    offerReport .normal (phaseReport s.control) (copy 3 (copy 2 (copy 1 (copy 0 s)))) := by
  simp only [announcePhase, finRange_four, List.foldl_cons, List.foldl_nil, arenaFrame, offerRadio_control]
  rfl

/-! ### The change of phase -/

/-- The new phase and its timer are written and told, and no block has taken the change yet. -/
def announced (new : Phase) (timer : Nat) (s : State) : State :=
  announcePhase (s.setControl { s.control with
    phase := new, timer, accumulator := entryAccumulator new s.control.accumulator })

/-- The stations, the claim table and the credit unit have taken the change, and the queue manager is next. -/
def enteredBeforePurge (new : Phase) (timer : Nat) (s : State) : State :=
  creditEntry s.control.phase new (claimEntry new (holdEntry new (announced new timer s)))

/-- The queue manager has taken the change too. -/
def enteredAfterPurge (new : Phase) (timer : Nat) (s : State) : State :=
  queueEntry s.control.phase new (enteredBeforePurge new timer s)

theorem enterPhase_eq (new : Phase) (timer : Nat) (s : State) : enterPhase new timer s =
    tallyEntry new (chainEntry s.control.phase new (enteredAfterPurge new timer s)) := rfl

section
variable (new : Phase) (timer : Nat) (s : State)

theorem outputGrows_announced : OutputGrows s (announced new timer s) := by
  have written : ∀ c, OutputGrows s (s.setControl c) := fun _ => .of_eq rfl rfl rfl
  exact (written _).trans (.out (.announcePhase _))

theorem outputGrows_enteredBeforePurge : OutputGrows (announced new timer s) (enteredBeforePurge new timer s) :=
  (OutputGrows.holdEntry new _).trans (.of_eq (by simp [enteredBeforePurge]) (by simp [enteredBeforePurge])
    (by simp [enteredBeforePurge]))

theorem outputGrows_toPurge : OutputGrows s (enteredBeforePurge new timer s) :=
  (outputGrows_announced new timer s).trans (outputGrows_enteredBeforePurge new timer s)

theorem outputGrows_enterPhase : OutputGrows (enteredAfterPurge new timer s) (enterPhase new timer s) :=
  (OutputGrows.of_eq (chainEntry_areas _ _ _) (chainEntry_framers _ _ _) (chainEntry_reportsLost _ _ _)).trans
    (.tallyEntry new _)

/-- The purge takes frames out of the areas alone. -/
theorem enterPhase_port (p : Port) :
    (enterPhase new timer s).port p = { s.port p with discards := ((enterPhase new timer s).port p).discards } := by
  have purge : (enteredAfterPurge new timer s).port p = (enteredBeforePurge new timer s).port p := by
    cases p <;> simp only [State.port, enteredAfterPurge, queueEntry_framers]
  rw [(outputGrows_enterPhase new timer s).port p, purge, (outputGrows_toPurge new timer s).port p]

theorem enterPhase_reportsLost (h : s.reportsLost = true) : (enterPhase new timer s).reportsLost = true :=
  (outputGrows_enterPhase new timer s).lost ((queueEntry_reportsLost _ _ _).trans ((outputGrows_toPurge new timer s).lost h))

variable {new s}

theorem enterPhase_stored (h : ¬(s.control.phase.isDriven = true ∧ (new.isPaused = true ∨ new.isEnded = true))) (a : AreaId) :
    ((announced new timer s).area a).frames <+: ((enterPhase new timer s).area a).frames := by
  have kept : enteredAfterPurge new timer s = enteredBeforePurge new timer s := if_neg (by simpa using h)
  exact ((outputGrows_enteredBeforePurge new timer s).trans (kept ▸ outputGrows_enterPhase new timer s)).stored a

theorem enterPhase_purged (driven : s.control.phase.isDriven = true) (leaves : new.isPaused = true ∨ new.isEnded = true)
    (a : AreaId) :
    (((announced new timer s).area a).frames.filter fun f => decide (f.kind ≠ .pilot))
        <+: ((enterPhase new timer s).area a).frames := by
  have purge : enteredAfterPurge new timer s = purgePilot (enteredBeforePurge new timer s) := if_pos (by simp [driven, leaves])
  have rest : ((enteredAfterPurge new timer s).area a).frames
      = ((enteredBeforePurge new timer s).area a).frames.filter fun f => decide (f.kind ≠ .pilot) := by
    rw [purge, State.area, purgePilot, Table.get_map]
    rfl
  refine List.IsPrefix.trans ?_ ((outputGrows_enterPhase new timer s).stored a)
  rw [rest]
  exact ((outputGrows_enteredBeforePurge new timer s).stored a).filter _

/-- PAUSED and ENDED are not played in, so that no PILOT frame is left there (R127). -/
theorem enterPhase_pilotFree (driven : s.control.phase.isDriven = true) (leaves : new.isPaused = true ∨ new.isEnded = true) :
    (enterPhase new timer s).PilotFree := by
  have still : new.isDriven = false := by
    obtain _ | _ | _ | _ | _ := new
    case running => exact absurd leaves (by simp [Phase.isPaused, Phase.isEnded])
    all_goals rfl
  have fits : s.pilotFits := fun idle => nomatch idle.symm.trans driven
  exact fits.enterPhase (fun _ _ => by simpa using leaves) timer (by rw [enterPhase_control_phase, still])

variable (new s)

theorem enterPhase_control : (enterPhase new timer s).control = { s.control with
    phase := new, timer, accumulator := if new.isBetween then 0 else s.control.accumulator } := by
  simp only [enterPhase, tallyEntry_control, chainEntry_control, queueEntry_control, creditEntry_control, claimEntry_control,
    holdEntry_control, announcePhase_control]
  rfl

theorem enterPhase_station (n : StationId) : (enterPhase new timer s).station n = { s.station n with
    held := if new.isDriven then
        if (s.station n).kind = some .robot then
          (s.station n).partner.any fun k => decide ((s.station k).state ≠ .linked)
        else (s.station n).held
      else false } := by
  have stations : (announced new timer s).stations = s.stations := by simp [announced]
  have record : ∀ k, (announced new timer s).station k = s.station k := station_congr stations
  have phase : (announced new timer s).control.phase = new := by simp [announced, State.setControl]
  have last : (enterPhase new timer s).stations = (holdEntry new (announced new timer s)).stations := by
    simp [enterPhase, announced]
  rw [station_congr last, holdEntry]
  split
  · next driven =>
    rw [evaluateAll_station, holdCondition_eq, phase, driven, Bool.true_and]
    simp only [record]
  · rw [HeldOnly.clearHeld _ n, clearHeld_held, record]

theorem enterPhase_credit : (enterPhase new timer s).credit =
    if s.control.phase = .staged ∧ new = .running .auto then
      { s.credit with balances := .fill 32 (16 * s.credit.burst) }
    else s.credit := by
  simp only [enterPhase, tallyEntry_credit, chainEntry_credit, queueEntry_credit, creditEntry]
  split <;> simp [fillCredit, Credit.cap]

theorem enterPhase_chain : (enterPhase new timer s).chain = { s.chain with
    halted := if new.isPaused then true else if s.control.phase.isPaused then false else s.chain.halted
    sideA := (enterPhase new timer s).chain.sideA
    sideB := (enterPhase new timer s).chain.sideB } := by
  rw [← enterPhase_chain_halted new timer s]
  dsimp only
  rw [← enterPhase_chain_nodes s new timer, ← enterPhase_chain_mode s new timer, ← enterPhase_chain_replyTimeout s new timer,
    ← enterPhase_chain_tags s new timer, ← enterPhase_chain_slot s new timer, ← enterPhase_chain_census s new timer]

theorem enterPhase_messages (e : ChainEnd) : ((enterPhase new timer s).side e).messages =
    (s.side e).messages ++ match phaseSignal s.control.phase new with
      | some type => if e = .ca ∨ s.chain.mode = .ring then [signalMessage type] else []
      | none => [] := by
  have before : (enteredAfterPurge new timer s).chain = s.chain := by simp [enteredAfterPurge, enteredBeforePurge, announced]
  have after : (enterPhase new timer s).side e
      = (chainEntry s.control.phase new (enteredAfterPurge new timer s)).side e := by
    cases e <;> simp only [State.side, enterPhase_eq, tallyEntry_chain]
  have side : (enteredAfterPurge new timer s).side e = s.side e := by cases e <;> simp only [State.side, before]
  rw [after, chainEntry_messages, side, before]

variable {new}

theorem enterPhase_tally_ended (ended : new.isEnded = true) :
    (enterPhase new timer s).tally.fixed = s.tally.fixed ∧ (enterPhase new timer s).tally.final ≠ .idle := by
  have before : (chainEntry s.control.phase new (enteredAfterPurge new timer s)).tally = s.tally := by
    simp [enteredAfterPurge, enteredBeforePurge, announced]
  rw [enterPhase_eq, tallyEntry, if_pos ended, ← before]
  exact ⟨startFinalSettle_tally_fixed _, startFinalSettle_tally_final _⟩

theorem enterPhase_tally_playing (playing : new.isEnded = false) : (enterPhase new timer s).tally = s.tally := by
  simp [enterPhase, tallyEntry, playing]

end

/-- Settles O47: what each block's entry effect writes, field by field, and last the whole next state, block after block. -/
theorem enteringAPhaseTellsItAndTakesEffect : Obligations.EnteringAPhaseTellsItAndTakesEffect := by
  intro new timer s old t accumulator entered arena report copy told purged held signal
  have told_eq : announced new timer s = told := by
    rw [announced, announcePhase_eq, phaseReport, Phase.causeByte_eq]
    rfl
  have areas := AreasKept.enterPhase new timer s
  have signal_eq : phaseSignal old new = signal := rfl
  refine ⟨enterPhase_control new timer s, fun kept a => told_eq ▸ enterPhase_stored timer kept a,
    fun ⟨driven, leaves⟩ a => ⟨told_eq ▸ enterPhase_purged timer driven leaves a, enterPhase_pilotFree timer driven leaves a⟩,
    enterPhase_station new timer s, fun ended q => ?_, fun playing => ⟨?_, enterPhase_tally_playing timer s playing⟩,
    fun ended => ?_, fun cap => ?_, fun other => (enterPhase_credit new timer s).trans (if_neg other),
    enterPhase_chain new timer s, enterPhase_messages new timer s, enterPhase_map s new timer,
    enterPhase_classifier s new timer, ?_, enterPhase_port new timer s, areas.layout, enterPhase_reportsLost new timer s,
    enterPhase_pending s new timer, ?_⟩
  · rw [State.claim, enterPhase_claims, if_pos ended, Table.get_fill]
    rfl
  · exact (enterPhase_claims new timer).trans (if_neg (by simp [playing]))
  · obtain ⟨fixed, started⟩ := enterPhase_tally_ended timer s ended
    obtain ⟨goals, points⟩ := Prod.mk.inj fixed
    obtain ⟨bonus, penalty⟩ := Prod.mk.inj points
    exact ⟨goals, bonus, penalty, started⟩
  · have credit := (enterPhase_credit new timer s).trans (if_pos cap)
    simp only [t, State.balance, credit, Table.get_fill, implies_true, and_self]
  · simp [t, enterPhase, holdEntry_staleLimit]
  · intro evaluated cleared filled emptied signalled
    have signalled_eq : chainEntry old new emptied = signalled := by
      rw [chainEntry_eq, signal_eq]
      simp only [sendSignal_eq]
      rfl
    rw [← signalled_eq]
    change enterPhase new timer s = _
    rw [enterPhase_eq, enteredAfterPurge, enteredBeforePurge, told_eq]
    rfl

end Sys2Proof.Machine
end

section
/-! SUPPORT. The requests of the score tally: the checks of GOAL_CONFIG, RULING, PENALTY and AWARD one by one, and what a score
adds up to. -/

-- One theorem after the other: each elaboration task that runs beside another takes a stack from the check's memory limit.
set_option Elab.async false

namespace Sys2Proof.Machine

variable {r : Request} {s : State} {g : GoalSlot} {a : Alliance} {p : Period}

/-! ### GOAL_CONFIG (R174) -/

theorem exec_goalConfig (h : r.args.length ≤ 46) (given : 8 ≤ r.args.length) :
    exec (.goalConfig r) s = .next (reply 0x70 r (ownGoalConfig r (mgmtArrives s))) := takeRequest_taken h given

/-- The weights, the tolerance and the settle time that GOAL_CONFIG carries lie in their ranges (R174). -/
def GoalFits (r : Request) : Prop :=
  byteAt r.args 2 ≤ 50 ∧ byteAt r.args 3 ≤ 50 ∧ byteAt r.args 4 ≤ 50 ∧ byteAt r.args 5 ≤ 3
    ∧ 100 ≤ wordAt r.args 6 ∧ wordAt r.args 6 ≤ 2000

/-- The goal that GOAL_CONFIG spells for position q. -/
def goalSpelled (r : Request) (q : Position) : Goal :=
  { position := some q, wAuto := byteAt r.args 2, wDriver := byteAt r.args 3, wEndgame := byteAt r.args 4
    tolerance := byteAt r.args 5, settleTime := wordAt r.args 6 }

theorem ownGoalConfig_locked (h : s.control.phase ≠ .setup) : ownGoalConfig r s = refuse .locked s := if_pos h

/-- Another goal slot than g is configured at position q. -/
theorem any_otherGoal_iff {q : Position} :
    ((List.finRange 8).any fun k => decide (k ≠ g) && decide ((s.goal k).position = some q)) = true ↔
      ∃ k, k ≠ g ∧ (s.goal k).position = some q := by
  simp only [List.any_eq_true, List.mem_finRange, true_and, Bool.and_eq_true, decide_eq_true_eq]

section
variable (setup : s.control.phase = .setup)
include setup

theorem ownGoalConfig_bad (h : 7 < byteAt r.args 0 ∨ 32 < byteAt r.args 1) : ownGoalConfig r s = refuse .badArgument s := by
  rw [ownGoalConfig, if_neg (not_not_intro setup)]
  split
  · rfl
  · next g named =>
    have low := ofIndex_val named
    exact if_pos (h.resolve_left (by omega))

theorem ownGoalConfig_emptied (named : byteAt r.args 0 = g.val) (removes : byteAt r.args 1 = 0) :
    ownGoalConfig r s = done (s.setTally { s.tally with goals := s.tally.goals.set g .unconfigured }) := by
  rw [ownGoalConfig, if_neg (not_not_intro setup), ofIndex_of g named]
  dsimp only
  rw [if_neg (by omega), ofNum_bad (by omega)]

section
variable {q : Position} (named : byteAt r.args 0 = g.val) (place : byteAt r.args 1 = q.val + 1)
include named place

theorem ownGoalConfig_unfit (bad : ¬GoalFits r) : ownGoalConfig r s = refuse .badArgument s := by
  rw [ownGoalConfig, if_neg (not_not_intro setup), ofIndex_of g named]
  dsimp only
  rw [if_neg (by omega), ofNum_of q place]
  exact if_pos (by simp only [GoalFits] at bad; omega)

/-- With good arguments the other slots are checked, and the goal is written. -/
theorem ownGoalConfig_placed (fits : GoalFits r) :
    ownGoalConfig r s =
      if ∃ k, k ≠ g ∧ (s.goal k).position = some q then refuse .overlap s
      else done (s.setTally { s.tally with goals := s.tally.goals.set g (goalSpelled r q) }) := by
  rw [ownGoalConfig, if_neg (not_not_intro setup), ofIndex_of g named]
  dsimp only
  rw [if_neg (by omega), ofNum_of q place]
  dsimp only
  rw [if_neg (by simp only [GoalFits] at fits; omega)]
  exact if_congr any_otherGoal_iff rfl rfl

end

end

/-- Settles O50: each request is taken, and its owner checks the phase, the slot and the position, then for a position the ranges
and the other slots. -/
theorem goalsAreConfiguredInSetup : Obligations.GoalsAreConfiguredInSetup := by
  intro r s given len m b settle config written fits
  have taken : ∀ {o}, ownGoalConfig r m = o → config o := fun h => h ▸ exec_goalConfig len given
  refine ⟨fun locked => taken (ownGoalConfig_locked locked), fun setup bad => taken (ownGoalConfig_bad setup bad),
    fun g setup named => ⟨fun removes => taken (ownGoalConfig_emptied setup named removes), fun q place => ?_⟩⟩
  intro other
  have checks := ownGoalConfig_placed (s := m) setup named place
  exact ⟨fun bad => taken (ownGoalConfig_unfit setup named place bad),
    fun good shared => taken ((checks good).trans (if_pos shared)),
    fun good alone => taken ((checks good).trans (if_neg alone))⟩

/-! ### RULING, PENALTY and AWARD (R185, R186) -/

theorem exec_ruling (h : r.args.length ≤ 46) (given : 4 ≤ r.args.length) :
    exec (.ruling r) s = .next (reply 0x71 r (ownRuling r (mgmtArrives s))) := takeRequest_taken h given

theorem exec_penalty (h : r.args.length ≤ 46) (given : 3 ≤ r.args.length) :
    exec (.penalty r) s = .next (reply 0x72 r (ownPoints r addPenalty (mgmtArrives s))) := takeRequest_taken h given

theorem exec_award (h : r.args.length ≤ 46) (given : 3 ≤ r.args.length) :
    exec (.award r) s = .next (reply 0x73 r (ownPoints r addBonus (mgmtArrives s))) := takeRequest_taken h given

theorem Phase.isBefore_iff {x : Phase} : x.isBefore = true ↔ x = .setup ∨ x = .staged := by
  cases x <;> simp [Phase.isBefore]

theorem Period.ofCode_code (p : Period) : Period.ofCode p.code = some p := by cases p <;> rfl

theorem Period.code_of_ofCode {k : Nat} (h : Period.ofCode k = some p) : k = 2 ∨ k = 4 ∨ k = 5 := by
  unfold Period.ofCode at h
  split at h
  · exact .inl rfl
  · exact .inr (.inl rfl)
  · exact .inr (.inr rfl)
  · exact nomatch h

theorem ownRuling_locked (before : s.control.phase.isBefore = true) : ownRuling r s = refuse .locked s := if_pos before

theorem ownPoints_locked (add : Tally → Alliance → Nat → Tally) (before : s.control.phase.isBefore = true) :
    ownPoints r add s = refuse .locked s := if_pos before

section
variable (playing : ¬s.control.phase.isBefore = true)
include playing

theorem ownRuling_bad (h : 7 < byteAt r.args 0 ∨ 3 < byteAt r.args 1
      ∨ (byteAt r.args 2 ≠ 2 ∧ byteAt r.args 2 ≠ 4 ∧ byteAt r.args 2 ≠ 5)) :
    ownRuling r s = refuse .badArgument s := by
  rw [ownRuling, if_neg playing]
  split
  · next g a p slot alliance period =>
    have slot := ofIndex_val slot
    have alliance := ofIndex_val alliance
    have period := Period.code_of_ofCode period
    omega
  · rfl

theorem ownRuling_named (slot : byteAt r.args 0 = g.val) (alliance : byteAt r.args 1 = a.val)
    (period : byteAt r.args 2 = p.code) :
    ownRuling r s =
      if (s.goal g).position = none then refuse .state s
      else done (scoreNotice a
        (s.setRecord g a p { s.record g a p with state := .ruled, ruled := byteAt r.args 3 })) := by
  rw [ownRuling, if_neg playing, ofIndex_of g slot, ofIndex_of a alliance, period, Period.ofCode_code]

theorem ownPoints_bad (add : Tally → Alliance → Nat → Tally)
    (h : 3 < byteAt r.args 0 ∨ wordAt r.args 1 < 1 ∨ 1000 < wordAt r.args 1) :
    ownPoints r add s = refuse .badArgument s := by
  rw [ownPoints, if_neg playing]
  split
  · rfl
  · next a named =>
    have low := ofIndex_val named
    exact if_pos (h.resolve_left (by omega))

theorem ownPoints_named (add : Tally → Alliance → Nat → Tally) (named : byteAt r.args 0 = a.val)
    (low : 1 ≤ wordAt r.args 1) (high : wordAt r.args 1 ≤ 1000) :
    ownPoints r add s = done (scoreNotice a (s.setTally (add s.tally a (wordAt r.args 1)))) := by
  rw [ownPoints, if_neg playing, ofIndex_of a named]
  exact if_neg (by omega)

end

/-- Settles O51: each request is taken, and its owner checks the phase and the arguments, writes the record or the total, and
tells the new score. -/
theorem rulingsAndPointsAreTakenAndTold : Obligations.RulingsAndPointsAreTakenAndTold := by
  intro r s len m b points before ruling penalty award told
  have ruled : ∀ {o}, ownRuling r m = o → ruling o := fun h given => h ▸ exec_ruling len given
  have fined : ∀ {o}, ownPoints r addPenalty m = o → penalty o := fun h given => h ▸ exec_penalty len given
  have awarded : ∀ {o}, ownPoints r addBonus m = o → award o := fun h given => h ▸ exec_award len given
  have playing : ¬before → ¬m.control.phase.isBefore = true := mt Phase.isBefore_iff.mp
  refine ⟨fun early => ?_, fun later bad => ruled (ownRuling_bad (playing later) bad),
    fun g a p later slot alliance period => ?_,
    fun later bad => ⟨fined (ownPoints_bad (playing later) _ bad), awarded (ownPoints_bad (playing later) _ bad)⟩,
    fun a later named low high => ⟨fined (ownPoints_named (playing later) _ named low high),
      awarded (ownPoints_named (playing later) _ named low high)⟩⟩
  · have early : m.control.phase.isBefore = true := Phase.isBefore_iff.mpr early
    exact ⟨ruled (ownRuling_locked early), fined (ownPoints_locked _ early), awarded (ownPoints_locked _ early)⟩
  · have checks := ownRuling_named (s := m) (playing later) slot alliance period
    exact ⟨fun empty => ruled (checks.trans (if_pos empty)), fun configured => ruled (checks.trans (if_neg configured))⟩

/-! ### The score (R181, R182) -/

theorem goalSum_eq (s : State) (a : Alliance) (g : GoalSlot) : s.goalSum a g =
    if (s.goal g).position = none then 0
    else (s.goal g).wAuto * (s.record g a .auto).credited + (s.goal g).wDriver * (s.record g a .driver).credited
      + (s.goal g).wEndgame * (s.record g a .endgame).credited := by
  rw [State.goalSum]
  cases (s.goal g).position with
  | none => rfl
  | some q => simp [Period.all, Goal.weight, Nat.add_assoc]

theorem exactSum_eq (s : State) (a : Alliance) : s.exactSum a =
    s.goalSum a 0 + s.goalSum a 1 + s.goalSum a 2 + s.goalSum a 3 + s.goalSum a 4 + s.goalSum a 5 + s.goalSum a 6
      + s.goalSum a 7 := by
  have slots : List.finRange 8 = [0, 1, 2, 3, 4, 5, 6, 7] := rfl
  rw [State.exactSum, slots]
  simp only [List.map_cons, List.map_nil, List.sum_cons, List.sum_nil, Nat.add_zero, Nat.add_assoc]

/-- The clamp at 0 is the subtraction of natural numbers, the clamp at 65,535 a minimum. -/
theorem score_eq_clamp (s : State) (a : Alliance) :
    let adjusted : Int := s.exactSum a + s.tally.bonus.get a - s.tally.penalty.get a
    (s.score a : Int) = if adjusted < 0 then 0 else if 65535 < adjusted then 65535 else adjusted := by
  simp only [State.score, Config.maxCount]
  split_ifs <;> omega

theorem credited_agree (x : TallyRecord) (opened : x.state = .opened) :
    ({ x with state := .agreed } : TallyRecord).credited = x.credited + (x.main - min x.main x.check) := by
  simp only [TallyRecord.credited, opened]
  omega

/-- Settles O52: the credited count by its states, and the score by its sum over the slots and its two clamps. -/
theorem scoreIsTheAdjustedSumOfCreditedCounts : Obligations.ScoreIsTheAdjustedSumOfCreditedCounts := by
  refine ⟨fun x => ⟨fun agreed => ?_, fun open_ => ?_, fun ruled => ?_, credited_agree x⟩, fun a s => ?_⟩
  · rw [TallyRecord.credited, agreed]
  · rcases open_ with opened | disputed
    · rw [TallyRecord.credited, opened]
    · rw [TallyRecord.credited, disputed]
  · rw [TallyRecord.credited, ruled]
  · simp only [← goalSum_eq, ← exactSum_eq]
    exact score_eq_clamp s a

end Sys2Proof.Machine
end

section
/-! SUPPORT. The cross-check: what the comparison of a list of records writes, and what it tells; the settle expiry of a goal, and
the final settle. -/

-- One theorem after the other: each elaboration task that runs beside another takes a stack from the check's memory limit.
set_option Elab.async false

namespace Sys2Proof.Machine

variable {s t u : State} {g : GoalSlot}

/-! ### Reports beside the tally -/

/-- A report is offered alike whatever the tally holds. -/
theorem offerReportIn_setTally (k : Nat) (l : Lane) (f : Frame) (s : State) (x : Tally) :
    offerReportIn k l f (s.setTally x) = (offerReportIn k l f s).setTally x := by
  induction k generalizing l f s with
  | zero => rfl
  | succ k ih =>
    cases chosen : s.chooseArea (.port .ml) l none with
    | none => rw [offerReportIn_unserved chosen, offerReportIn_unserved (s := s.setTally x) chosen]; rfl
    | some a =>
      cases full : (s.area a).full with
      | false => rw [offerReportIn_stored chosen full, offerReportIn_stored (s := s.setTally x) chosen full]; rfl
      | true =>
        cases told : (s.area a).notified with
        | true =>
          rw [offerReportIn_notified chosen full told, offerReportIn_notified (s := s.setTally x) chosen full told]
          rfl
        | false =>
          rw [offerReportIn_untold chosen full told, offerReportIn_untold (s := s.setTally x) chosen full told, ← ih]
          rfl

theorem notice_setTally (name : ReportName) (data : List Byte) (s : State) (x : Tally) :
    notice name data (s.setTally x) = (notice name data s).setTally x := offerReportIn_setTally 3 _ _ s x

/-- What reads the tally alone reads the same from every state with that tally. -/
theorem eq_of_tally {β : Type} (p : State → β) (reads : ∀ (s t : State) (x : Tally), p (s.setTally x) = p (t.setTally x))
    (h : t.tally = s.tally) : p t = p s :=
  (reads t s t.tally).trans (congrArg (fun x => p (s.setTally x)) h)

/-! ### One record (R179) -/

/-- What tells one tally record from the others. -/
abbrev RecordKey := GoalSlot × Alliance × Period

/-- What a comparison reads: the record, and the tolerance of its goal. -/
def State.readings (s : State) (k : RecordKey) : TallyRecord × Nat := (s.record k.1 k.2.1 k.2.2, (s.goal k.1).tolerance)

theorem readings_congr (h : t.tally = s.tally) (k : RecordKey) : t.readings k = s.readings k :=
  eq_of_tally (·.readings k) (fun _ _ _ => rfl) h

/-- The record as a comparison leaves it. -/
def TallyRecord.compared (x : TallyRecord) (tolerance : Nat) : TallyRecord :=
  if x.state = .opened then { x with state := if x.agrees tolerance then .agreed else .disputed } else x

/-- The comparison finds a dispute. -/
def TallyRecord.contested (x : TallyRecord) (tolerance : Nat) : Bool :=
  decide (x.state = .opened) && !x.agrees tolerance

/-- A comparison writes the record k. -/
def markCompared (k : RecordKey) (x : TallyRecord × Nat) (s : State) : State :=
  s.setRecord k.1 k.2.1 k.2.2 (x.1.compared x.2)

/-- A comparison tells of a dispute about the record k. -/
def tellDispute (k : RecordKey) (x : TallyRecord × Nat) (s : State) : State :=
  if x.1.contested x.2 then
    notice .dispute [byte k.1.val, byte k.2.1.val, byte k.2.2.code, byte x.1.main, byte x.1.check] s
  else s

theorem agrees_iff {x : TallyRecord} {tolerance : Nat} : x.agrees tolerance = true ↔
    ¬(tolerance < x.main - x.check ∨ tolerance < x.check - x.main) := by
  simp [TallyRecord.agrees]

theorem contested_iff {x : TallyRecord} {tolerance : Nat} : x.contested tolerance = true ↔
    x.state = .opened ∧ (tolerance < x.main - x.check ∨ tolerance < x.check - x.main) := by
  rw [TallyRecord.contested, Bool.and_eq_true, decide_eq_true_eq, Bool.not_eq_true', ← Bool.not_eq_true, agrees_iff, not_not]

theorem compared_eq (x : TallyRecord) (tolerance : Nat) : x.compared tolerance =
    if x.state = .opened then
      { x with state := if tolerance < x.main - x.check ∨ tolerance < x.check - x.main then .disputed else .agreed }
    else x := by
  have state : (if x.agrees tolerance then TallyState.agreed else .disputed)
      = if tolerance < x.main - x.check ∨ tolerance < x.check - x.main then .disputed else .agreed := by
    rw [← ite_not]
    exact if_congr (agrees_iff.not.trans not_not) rfl rfl
  rw [TallyRecord.compared, state]

theorem setRecord_record (s : State) (g : GoalSlot) (a : Alliance) (p : Period) :
    s.setRecord g a p (s.record g a p) = s := by
  have own : ∀ x : PeriodRecords, x.set p (x.get p) = x := by cases p <;> exact fun _ => rfl
  rw [State.setRecord, State.record, own, Table.set_get, Table.set_get]
  rfl

theorem compareRecord_eq (g : GoalSlot) (s : State) (i : Alliance × Period) :
    compareRecord g s i = tellDispute (g, i) (s.readings (g, i)) (markCompared (g, i) (s.readings (g, i)) s) := by
  simp only [compareRecord, tellDispute, markCompared, State.readings]
  by_cases opened : (s.record g i.1 i.2).state = .opened
  · by_cases agrees : (s.record g i.1 i.2).agrees (s.goal g).tolerance = true <;>
      simp [TallyRecord.contested, TallyRecord.compared, opened, agrees]
  · simp [TallyRecord.contested, TallyRecord.compared, opened, setRecord_record]

theorem tellDispute_tally (k : RecordKey) (x : TallyRecord × Nat) (s : State) : (tellDispute k x s).tally = s.tally := by
  rw [tellDispute]
  split
  · exact notice_tally ..
  · rfl

theorem tellDispute_setTally (k : RecordKey) (x : TallyRecord × Nat) (s : State) (y : Tally) :
    tellDispute k x (s.setTally y) = (tellDispute k x s).setTally y := by
  simp only [tellDispute]
  split
  · exact notice_setTally ..
  · rfl

/-- A dispute may be told before another record is written or after it. -/
theorem markCompared_tellDispute (j k : RecordKey) (x y : TallyRecord × Nat) (s : State) :
    markCompared j y (tellDispute k x s) = tellDispute k x (markCompared j y s) := by
  simp only [markCompared, State.setRecord, tellDispute_tally, tellDispute_setTally]

theorem readings_markCompared_other (k : RecordKey) (x : TallyRecord × Nat) (s : State) {j : RecordKey} (h : j ≠ k) :
    (markCompared k x s).readings j = s.readings j := by
  obtain ⟨g, a, p⟩ := j
  obtain ⟨g', a', p'⟩ := k
  have other : ¬(g = g' ∧ a = a' ∧ p = p') := fun ⟨hg, ha, hp⟩ => h (by rw [hg, ha, hp])
  rw [State.readings, markCompared, State.record_setRecord, if_neg other]
  rfl

/-! ### A list of records -/

/-- The records of the tally with the record k written. -/
def setRow (k : RecordKey) (x : TallyRecord) (rows : Table (Table PeriodRecords 4) 8) : Table (Table PeriodRecords 4) 8 :=
  rows.set k.1 ((rows.get k.1).set k.2.1 (((rows.get k.1).get k.2.1).set k.2.2 x))

/-- The records of a list are written as a comparison leaves what the state s held in them. -/
def comparedRows (s : State) (l : List RecordKey) (rows : Table (Table PeriodRecords 4) 8) : Table (Table PeriodRecords 4) 8 :=
  l.foldl (fun rows k => setRow k ((s.readings k).1.compared (s.readings k).2) rows) rows

/-- The disputes about the records of a list are told, as the state s held the records. -/
def tellAll (s : State) (l : List RecordKey) (u : State) : State := l.foldl (fun u k => tellDispute k (s.readings k) u) u

/-- Of the whole state, a comparison writes the records of the tally alone. -/
theorem foldl_markCompared (s : State) (l : List RecordKey) (u : State) :
    l.foldl (fun u k => markCompared k (s.readings k) u) u =
      u.setTally { u.tally with records := comparedRows s l u.tally.records } :=
  List.foldl_hom (init := u.tally.records) (fun rows => u.setTally { u.tally with records := rows }) fun _ _ => rfl

/-- Two kinds of steps of which every one may be put off behind those of the other kind are taken one kind after the other. -/
theorem foldl_interleaved {α β : Type} {first second : β → α → β}
    (apart : ∀ b i j, first (second b i) j = second (first b j) i) (l : List α) (b : β) :
    l.foldl (fun b i => second (first b i) i) b = l.foldl second (l.foldl first b) := by
  induction l generalizing b with
  | nil => rfl
  | cons i l ih =>
    rw [List.foldl_cons, ih, List.foldl_hom (f := (second · i)) fun b j => apart b i j]
    rfl

/-- A comparison of distinct records writes all of them and tells of the disputes, each as it was before. -/
theorem foldl_compareRecord {l : List RecordKey} (once : l.Nodup) (same : ∀ k ∈ l, u.readings k = s.readings k) :
    l.foldl (fun u k => compareRecord k.1 u k.2) u =
      tellAll s l (u.setTally { u.tally with records := comparedRows s l u.tally.records }) := by
  have before := foldl_reads_before (f := fun u k => compareRecord k.1 u k.2) (read := State.readings)
    (write := fun k x u => tellDispute k x (markCompared k x u)) (fun u k => compareRecord_eq k.1 u k.2)
    (fun u k x j other => by rw [readings_congr (tellDispute_tally ..), readings_markCompared_other k x u other]) once same
  rw [before, ← foldl_markCompared]
  exact foldl_interleaved (second := fun u k => tellDispute k (s.readings k) u)
    (first := fun u k => markCompared k (s.readings k) u) (fun u i j => markCompared_tellDispute j i _ _ u) l u

theorem tellAll_tally (s : State) (l : List RecordKey) (u : State) : (tellAll s l u).tally = u.tally :=
  foldl_keeps (fun u => u.tally) (fun u k => tellDispute_tally k (s.readings k) u) l u

theorem tellAll_setTally (s : State) (l : List RecordKey) (u : State) (x : Tally) :
    tellAll s l (u.setTally x) = (tellAll s l u).setTally x :=
  List.foldl_hom (fun u : State => u.setTally x) fun u k => tellDispute_setTally k (s.readings k) u x

/-- The records of the list are compared as the state s held them, and the others stay. -/
theorem comparedRows_record (s : State) (l : List RecordKey) (u : State) (k : RecordKey) :
    (u.setTally { u.tally with records := comparedRows s l u.tally.records }).record k.1 k.2.1 k.2.2 =
      if k ∈ l then (s.readings k).1.compared (s.readings k).2 else u.record k.1 k.2.1 k.2.2 := by
  rw [← foldl_markCompared]
  induction l generalizing u with
  | nil => rfl
  | cons j l ih =>
    rw [List.foldl_cons, ih]
    by_cases listed : k ∈ l
    · rw [if_pos listed, if_pos (List.mem_cons_of_mem j listed)]
    · rw [if_neg listed]
      by_cases own : k = j
      · subst own
        rw [if_pos List.mem_cons_self, markCompared, State.record_setRecord, if_pos ⟨rfl, rfl, rfl⟩]
      · rw [if_neg (List.not_mem_cons_of_ne_of_not_mem own listed)]
        exact congrArg Prod.fst (readings_markCompared_other j (s.readings j) u own)

/-! ### A goal -/

theorem mem_recordOrder (i : Alliance × Period) : i ∈ recordOrder := by
  obtain ⟨a, p⟩ := i
  simp only [recordOrder, List.mem_flatMap, List.mem_finRange, true_and, List.mem_map, Prod.mk.injEq]
  exact ⟨a, p, by cases p <;> simp [Period.all], rfl, rfl⟩

theorem nodup_recordOrder : recordOrder.Nodup := by decide

/-- The records of a goal, in the order of a comparison. -/
def goalKeys (g : GoalSlot) : List RecordKey := recordOrder.map fun i => (g, i)

theorem mem_goalKeys {k : RecordKey} : k ∈ goalKeys g ↔ k.1 = g := by
  obtain ⟨h, i⟩ := k
  simp only [goalKeys, List.mem_map, Prod.mk.injEq]
  exact ⟨fun ⟨_, _, own, _⟩ => own.symm, fun own => ⟨i, mem_recordOrder i, own.symm, rfl⟩⟩

theorem nodup_goalKeys (g : GoalSlot) : (goalKeys g).Nodup :=
  nodup_recordOrder.map fun _ _ same => congrArg Prod.snd same

theorem compareGoal_eq (g : GoalSlot) (s : State) :
    compareGoal g s = (goalKeys g).foldl (fun u k => compareRecord k.1 u k.2) s := by
  rw [goalKeys, List.foldl_map]
  rfl

/-- The records of other goals stay. -/
theorem comparedRows_goalKeys_other (s : State) {g k : GoalSlot} (other : k ≠ g) (rows : Table (Table PeriodRecords 4) 8) :
    (comparedRows s (goalKeys g) rows).get k = rows.get k := by
  have all : ∀ l : List (Alliance × Period), (comparedRows s (l.map fun i => (g, i)) rows).get k = rows.get k := fun l => by
    induction l generalizing rows with
    | nil => rfl
    | cons i l ih => exact (ih _).trans (Table.get_set_ne _ other _)
  exact all recordOrder

/-! ### The settle expiry (R179) -/

theorem exec_settleExpiry_running {left : Nat} (h : s.tally.settle.get g = some left) :
    exec (.settleExpiry g) s = .next (settleExpired g (elapse left s)) := by
  change execSettleExpiry g s = _
  rw [execSettleExpiry, h]

theorem exec_settleExpiry_stopped (h : s.tally.settle.get g = none) : exec (.settleExpiry g) s = .next s := by
  change execSettleExpiry g s = _
  rw [execSettleExpiry, h]

theorem elapse_readings (n : Nat) (s : State) (k : RecordKey) : (elapse n s).readings k = s.readings k := by
  rw [State.readings, State.record, State.goal, elapse_tally]
  rfl

/-- The tally after the settle expiry of goal g. -/
def State.expiredTally (s : State) (g : GoalSlot) (left : Nat) : Tally :=
  { (elapse left s).tally with
    settle := (elapse left s).tally.settle.set g none
    records := comparedRows s (goalKeys g) s.tally.records }

/-- The comparison reads what the state s held before time passed. -/
theorem settleExpired_elapse (left : Nat) (s : State) : settleExpired g (elapse left s) =
    tellAll s (goalKeys g) ((elapse left s).setTally (s.expiredTally g left)) := by
  have records : (elapse left s).tally.records = s.tally.records := by rw [elapse_tally]; rfl
  have same : ∀ k, ((elapse left s).setSettle g none).readings k = s.readings k := elapse_readings left s
  rw [settleExpired, compareGoal_eq, foldl_compareRecord (nodup_goalKeys g) fun k _ => same k, State.setSettle_records,
    records]
  rfl

/-! ### The final settle (R183, R184) -/

theorem exec_finalSettleExpiry_running {left : Nat} (h : s.tally.final = .running left) :
    exec .finalSettleExpiry s = .next (endFinalSettle (elapse left s)) := by
  change execFinalSettleExpiry s = _
  rw [execFinalSettleExpiry, h]

theorem exec_finalSettleExpiry_stopped (h : ∀ left, s.tally.final ≠ .running left) :
    exec .finalSettleExpiry s = .next s := by
  change execFinalSettleExpiry s = _
  rw [execFinalSettleExpiry]
  cases final : s.tally.final with
  | running left => exact absurd final (h left)
  | idle | done => rfl

/-- The configured goals, in the order of the final comparison. -/
def State.configured (s : State) : List GoalSlot := (List.finRange 8).filter fun g => decide ((s.goal g).position ≠ none)

/-- The records of the configured goals, in the order of the final comparison. -/
def State.configuredKeys (s : State) : List RecordKey := s.configured.flatMap goalKeys

theorem mem_configuredKeys {k : RecordKey} : k ∈ s.configuredKeys ↔ (s.goal k.1).position ≠ none := by
  simp only [State.configuredKeys, State.configured, List.mem_flatMap, List.mem_filter, List.mem_finRange, true_and,
    decide_eq_true_eq, mem_goalKeys, exists_eq_right']

theorem nodup_configuredKeys (s : State) : s.configuredKeys.Nodup := by
  refine List.nodup_flatMap.mpr ⟨fun g _ => nodup_goalKeys g, ?_⟩
  refine ((List.nodup_finRange 8).filter _).imp fun {g h} other k first second => ?_
  exact other ((mem_goalKeys.mp first).symm.trans (mem_goalKeys.mp second))

/-- Comparisons leave the goals, so that the configured ones may be picked before them. -/
theorem foldl_compareConfigured (l : List GoalSlot) (same : ∀ g, u.goal g = s.goal g) :
    l.foldl compareConfigured u =
      (l.filter fun g => decide ((s.goal g).position ≠ none)).foldl (fun u g => compareGoal g u) u := by
  induction l generalizing u with
  | nil => rw [List.filter_nil, List.foldl_nil, List.foldl_nil]
  | cons g l ih =>
    have kept : ∀ h, (compareConfigured u g).goal h = u.goal h := fun h =>
      congrArg (fun x => (Prod.fst x).get h) (compareConfigured_tally_fixed u g)
    rw [List.foldl_cons, ih fun h => (kept h).trans (same h), compareConfigured, same g, List.filter_cons]
    cases (s.goal g).position with
    | none => rw [if_neg (by simp), if_neg (by simp)]
    | some q => rw [if_pos (by simp), if_pos (by simp), List.foldl_cons]

theorem foldl_compareGoal (l : List GoalSlot) (u : State) :
    l.foldl (fun u g => compareGoal g u) u = (l.flatMap goalKeys).foldl (fun u k => compareRecord k.1 u k.2) u := by
  rw [List.foldl_flatMap]
  exact congrArg (l.foldl · u) (funext₂ fun u g => compareGoal_eq g u)

/-- The tally at the end of the final settle. -/
def State.settledTally (s : State) : Tally :=
  { s.tally with
    settle := .fill 8 none
    records := comparedRows s s.configuredKeys s.tally.records
    final := .done }

theorem scoreBytes_congr (h : t.tally = s.tally) : t.scoreBytes = s.scoreBytes :=
  eq_of_tally State.scoreBytes (fun _ _ _ => rfl) h

theorem disputedCount_congr (h : t.tally = s.tally) : t.disputedCount = s.disputedCount :=
  eq_of_tally State.disputedCount (fun _ _ _ => rfl) h

theorem endFinalSettle_eq (s : State) : endFinalSettle s =
    let t := s.setTally s.settledTally
    notice .final (t.scoreBytes ++ [byte t.disputedCount]) (tellAll s s.configuredKeys t) := by
  have compared : (List.finRange 8).foldl compareConfigured (s.setTally { s.tally with settle := .fill 8 none }) =
      tellAll s s.configuredKeys (s.setTally { s.settledTally with final := s.tally.final }) := by
    have same : ∀ g, (s.setTally { s.tally with settle := .fill 8 none }).goal g = s.goal g := fun _ => rfl
    rw [foldl_compareConfigured _ same, foldl_compareGoal]
    exact foldl_compareRecord (s := s) (nodup_configuredKeys s) fun _ _ => rfl
  have settled : (tellAll s s.configuredKeys (s.setTally s.settledTally)).tally = (s.setTally s.settledTally).tally :=
    tellAll_tally ..
  dsimp only
  rw [endFinalSettle, compared]
  dsimp only
  rw [tellAll_tally, ← tellAll_setTally]
  change notice .final ((tellAll s s.configuredKeys (s.setTally s.settledTally)).scoreBytes
    ++ [byte (tellAll s s.configuredKeys (s.setTally s.settledTally)).disputedCount]) _ = _
  rw [scoreBytes_congr settled, disputedCount_congr settled]
  rfl

/-- The longest settle time is the least bound of those of the configured goals (R183). -/
theorem finalSettleTime_le_iff {n : Nat} :
    s.finalSettleTime ≤ n ↔ ∀ g, (s.goal g).position ≠ none → (s.goal g).settleTime ≤ n := by
  have folded : ∀ (l : List Nat) (k : Nat), l.foldl max k ≤ n ↔ k ≤ n ∧ ∀ x ∈ l, x ≤ n := fun l => by
    induction l with
    | nil => simp
    | cons x l ih => simp [ih, and_assoc]
  have each : ∀ x : Goal,
      (if x.position.isSome then x.settleTime else 0) ≤ n ↔ (x.position ≠ none → x.settleTime ≤ n) := fun x => by cases x.position <;> simp
  rw [State.finalSettleTime, folded]
  simp only [Nat.zero_le, true_and, List.forall_mem_map, Table.mem_items, forall_exists_index, forall_apply_eq_imp_iff, each]
  rfl

theorem startFinalSettle_none (h : s.finalSettleTime = 0) :
    startFinalSettle s = endFinalSettle { s with tally := { s.tally with final := .running 0 } } := by
  rw [startFinalSettle, h]
  exact if_pos rfl

theorem startFinalSettle_some (h : s.finalSettleTime ≠ 0) :
    startFinalSettle s = { s with tally := { s.tally with final := .running s.finalSettleTime } } := if_neg h

/-! ### The statement -/

theorem tellDispute_eq (k : RecordKey) (s u : State) : tellDispute k (s.readings k) u =
    if (s.record k.1 k.2.1 k.2.2).state = .opened
        ∧ ((s.goal k.1).tolerance < (s.record k.1 k.2.1 k.2.2).main - (s.record k.1 k.2.1 k.2.2).check
          ∨ (s.goal k.1).tolerance < (s.record k.1 k.2.1 k.2.2).check - (s.record k.1 k.2.1 k.2.2).main) then
      offerReport .normal { source := 0, destination := 0, sequence := 0, label := 0, kind := .report
                            payload := [0x84, 0, 0, byte k.1.val, byte k.2.1.val, byte k.2.2.code,
                              byte (s.record k.1 k.2.1 k.2.2).main, byte (s.record k.1 k.2.1 k.2.2).check] } u
    else u :=
  if_congr contested_iff rfl rfl

/-- Settles O53: a comparison reads each record as it was before any of them was written, so that all records may be written first
and the disputes told after; the final comparison is that of the records of all configured goals, one after the other. -/
theorem settlesCompareOpenRecords : Obligations.SettlesCompareOpenRecords := by
  unfold Obligations.SettlesCompareOpenRecords
  intro apart compared order tell
  have told : ∀ s u g, tellAll s (goalKeys g) u = tell s u g := fun s u g => by
    rw [tellAll, goalKeys, List.foldl_map]
    exact congrArg (recordOrder.foldl · u) (funext₂ fun u i => tellDispute_eq (g, i) s u)
  have judged : ∀ s g i, (s.readings (g, i)).1.compared (s.readings (g, i)).2 = compared s g i := fun s g i =>
    compared_eq ..
  refine ⟨fun g left s running => ?_, fun g s stopped => exec_settleExpiry_stopped stopped,
    fun left s running => exec_finalSettleExpiry_running running, fun s => ?_,
    fun s stopped => exec_finalSettleExpiry_stopped stopped, fun s => ⟨fun empty => ?_, fun g here long most => ?_⟩⟩
  · refine ⟨s.expiredTally g left, ?_, rfl, fun k other => comparedRows_goalKeys_other s other _, fun i _ => ?_⟩
    · rw [exec_settleExpiry_running running, settleExpired_elapse, told]
      rfl
    · rw [← judged]
      exact (comparedRows_record s (goalKeys g) s (g, i)).trans (if_pos (mem_goalKeys.mpr rfl))
  · refine ⟨s.settledTally, ?_, rfl, fun g => Table.get_fill none g, fun g i _ => ?_⟩
    · have toldAll : ∀ u, tellAll s s.configuredKeys u = s.configured.foldl (tell s) u := fun u => by
        rw [tellAll, State.configuredKeys, List.foldl_flatMap]
        exact congrArg (s.configured.foldl · u) (funext₂ fun u g => told s u g)
      rw [endFinalSettle_eq]
      dsimp only
      rw [toldAll, scoreBytes_eq]
      rfl
    · rw [← judged]
      exact (comparedRows_record s s.configuredKeys s (g, i)).trans (if_congr mem_configuredKeys rfl rfl)
  · refine startFinalSettle_none (Nat.le_zero.mp (finalSettleTime_le_iff.mpr fun g here => ?_))
    exact ((empty g).resolve_left here).le
  · have longest : s.finalSettleTime = (s.goal g).settleTime :=
      le_antisymm (finalSettleTime_le_iff.mpr most) (finalSettleTime_le_iff.mp le_rfl g here)
    rw [startFinalSettle_some (by omega), longest]

end Sys2Proof.Machine
end

section
/-! SUPPORT. The restart at power-on and at FULL_RESET: the values of the reset tables, the START notice, and the state after
reset as the one that POWER_ON brings about. -/

-- One theorem after the other: each elaboration task that runs beside another takes a stack from the check's memory limit.
set_option Elab.async false

namespace Sys2Proof.Machine

variable (cause : StartCause) (s : State)

/-! ### The blocks at power-on -/

theorem powerOnBlocks_area (a : AreaId) : (powerOnBlocks s).area a = if a = 0 then .zero else .disabled := by
  change powerOnAreas.get a = _
  rw [powerOnAreas, Table.get_set, Table.get_fill]

theorem powerOnBlocks_port (p : Port) : (powerOnBlocks s).port p = (s.port p).restart := by
  cases p with
  | ml => rfl
  | rl k => exact Table.get_map ..

/-- Area 0 is joined to ML and empty at power-on, so that a report finds room there. -/
theorem powerOnBlocks_chooseArea : (powerOnBlocks s).chooseArea (.port .ml) .normal none = some 0 := by
  have areas : ∀ a, ((powerOnBlocks s).area a).join = (State.reset.area a).join := fun a => by
    rw [powerOnBlocks_area]
    revert a
    decide
  rw [chooseArea_congr areas]
  decide

/-! ### The restart -/

/-- The START notice with its cause (R11). -/
def startNotice (cause : StartCause) : Frame := noticeFrame .start 0 [byte cause.code]

theorem restart_eq : restart cause s = (powerOnBlocks s).setArea 0 (Area.zero.store (startNotice cause)) := by
  have zero : (powerOnBlocks s).area 0 = .zero := powerOnBlocks_area s 0
  rw [restart, notice, offerReport_stored (powerOnBlocks_chooseArea s) (by rw [zero]; rfl), zero]
  rfl

theorem restart_area_zero : (restart cause s).area 0 = Area.zero.store (startNotice cause) := by
  rw [restart_eq, State.area_setArea_self]

theorem restart_area_other {a : AreaId} (other : a ≠ 0) : (restart cause s).area a = .disabled := by
  rw [restart_eq, State.area_setArea, if_neg other, powerOnBlocks_area, if_neg other]

theorem restart_port (p : Port) : (restart cause s).port p = (s.port p).restart := by
  rw [restart_eq, State.port_setArea_keep, powerOnBlocks_port]

theorem PeriodRecords.zero_get (p : Period) : PeriodRecords.zero.get p = .zero := by cases p <;> rfl

/-- A restart brings every block to the values of its reset table (R194, R196). -/
theorem restart_powerOnValues : PowerOnValues (restart cause s) where
  areaZero := by rw [restart_area_zero]; exact ⟨rfl, rfl, rfl, rfl, rfl⟩
  areas a other := restart_area_other cause s other
  framers p := by rw [restart_port]; exact ⟨rfl, rfl, rfl⟩
  stations n := by rw [restart_eq]; exact Table.get_fill ..
  staleLimit := by rw [restart_eq]; rfl
  rules i := by rw [restart_eq]; exact Table.get_fill ..
  active := by rw [restart_eq]; rfl
  defaults k := by rw [restart_eq]; exact Table.get_fill ..
  windows := by rw [restart_eq]; exact ⟨fun a => Table.get_fill .., rfl⟩
  sets q := by rw [restart_eq]; exact ⟨Table.get_fill .., Table.get_fill ..⟩
  profiles q := by rw [restart_eq]; exact Table.get_fill ..
  claims q := by rw [restart_eq]; exact Table.get_fill ..
  credit := by rw [restart_eq]; exact ⟨rfl, rfl, rfl, fun n => Table.get_fill ..⟩
  nodes q := by rw [restart_eq]; exact Table.get_fill ..
  chain := by
    rw [restart_eq]
    exact ⟨rfl, rfl, fun k => Table.get_fill .., rfl, rfl, rfl, fun e => by cases e <;> rfl⟩
  control := by rw [restart_eq]; rfl
  goals g := by rw [restart_eq]; exact Table.get_fill ..
  records g a p := by
    have rows : (restart cause s).record g a p = (((Table.fill 8 (Table.fill 4 PeriodRecords.zero)).get g).get a).get p := by
      rw [restart_eq]; rfl
    rw [rows, Table.get_fill, Table.get_fill, PeriodRecords.zero_get]
    rfl
  points a := by rw [restart_eq]; exact ⟨Table.get_fill .., Table.get_fill ..⟩
  settle := by rw [restart_eq]; exact ⟨fun g => Table.get_fill .., rfl⟩
  reportsLost := by rw [restart_eq]; rfl

/-- The state after reset is the one in which POWER_ON leaves it (R196). -/
theorem reset_eq_restart : State.reset = restart .powerOn State.reset := by
  rw [restart_eq]
  rfl

/-! ### The statements -/

/-- Settles O5: both commands restart the part, and the state after reset is a restarted one. -/
theorem resetsRestoreThePowerOnValues : Obligations.ResetsRestoreThePowerOnValues := by
  refine ⟨⟨?_, rfl, rfl⟩, fun c cause s command => ?_⟩
  · rw [reset_eq_restart]
    exact restart_powerOnValues .powerOn State.reset
  · obtain ⟨start, code, runs⟩ : ∃ start : StartCause, cause = byte start.code ∧ exec c s = .next (restart start s) := by
      rcases command with ⟨rfl, rfl⟩ | ⟨r, rfl, fits, rfl⟩
      · exact ⟨.powerOn, rfl, rfl⟩
      · exact ⟨.fullReset, rfl, if_neg (by omega)⟩
    refine ⟨_, runs, restart_powerOnValues start s, ?_, fun p => ?_, ?_⟩
    · rw [restart_eq]
      rfl
    · rw [restart_port]
      rfl
    · rw [restart_area_zero, code]
      rfl

/-- Settles O59: every restart has each of the properties, and the state after reset is a restarted one. -/
theorem resetHasWhatEveryStepKeeps : Obligations.ResetHasWhatEveryStepKeeps := by
  unfold Obligations.ResetHasWhatEveryStepKeeps
  rw [reset_eq_restart]
  have tally : (restart .powerOn State.reset).tallyFits := .powerOn (by rw [restart_eq]; rfl)
  exact ⟨.restart _ _, .powerOn (by rw [restart_eq]; rfl) (by rw [restart_eq]; rfl), .of_free (.restart _ _), .restart _ _,
    .restart _, (Bounded.restart _ _).countsFit tally⟩

end Sys2Proof.Machine
end

section
/-! SUPPORT. MGMT payloads and requests that are short or unknown. -/

-- One theorem after the other: each elaboration task that runs beside another takes a stack from the check's memory limit.
set_option Elab.async false

namespace Sys2Proof.Machine

variable {code : Nat}

/-! ### The catalogue (R188) -/

/-- No request takes more than 12 argument bytes. -/
theorem argumentLength_le_twelve (code : Nat) : (argumentLength code).getD 0 ≤ 12 := by
  have rows : ∀ x ∈ catalogue, x.2 ≤ 12 := by decide
  cases found : argumentLength code with
  | none => exact Nat.zero_le _
  | some n =>
    obtain ⟨before, after, list, _⟩ := List.lookup_eq_some_iff.mp found
    exact rows (code, n) (list ▸ List.mem_append_right _ List.mem_cons_self)

/-- The codes of the catalogue are 0x01 to 0x74. -/
theorem argumentLength_eq_none (h : code = 0 ∨ 0x75 ≤ code) : argumentLength code = none := by
  have rows : ∀ x ∈ catalogue, 1 ≤ x.1 ∧ x.1 ≤ 0x74 := by decide
  refine List.lookup_eq_none_iff.mpr fun x member => ?_
  obtain ⟨low, high⟩ := rows x member
  exact bne_iff_ne.mpr fun same => by omega

/-- A code outside the catalogue is no block's (R188 step 3). -/
theorem ownerOf_unknown (unknown : argumentLength code = none) (r : Request) (s : State) :
    ownerOf code r s = refuse .unknownRequest s := by
  unfold ownerOf
  split
  case h_46 => rfl
  all_goals exact absurd unknown (by decide)

/-! ### The statement -/

/-- Settles O7: a payload without a tag is no request, a request short of bytes does not come to its owner, and an unknown code
has none. -/
theorem shortAndUnknownRequestsHaveNoEffect : Obligations.ShortAndUnknownRequestsHaveNoEffect := by
  refine ⟨fun sequence payload s short => ⟨?_, rfl⟩, fun i code r s request missing => ?_, fun code r s unknown fits => ?_,
    fun code h => argumentLength_eq_none h⟩
  · obtain rfl | ⟨b, rfl⟩ : payload = [] ∨ ∃ b, payload = [b] := by
      match payload with
      | [] => exact .inl rfl
      | [b] => exact .inr ⟨b, rfl⟩
      | _ :: _ :: _ => simp at short
    · rfl
    · rfl
  · have given : code ≠ 0x03 := fun full => by simp [full] at missing
    have most := argumentLength_le_twelve code
    rw [exec_of_request request, takeCode_eq given, takeRequest_short (by omega) missing]
  · have answered : code.toNat ≠ 0x03 := fun full => by simp [full] at unknown
    rw [exec_of_request (i := .unknownRequest code r) rfl, takeCode_eq answered, takeRequest_taken fits (by simp [unknown]),
      ownerOf_unknown unknown]

end Sys2Proof.Machine
end

section
/-! SUPPORT. The stations at a FIELD_RESET: the record of each, what their departures leave of the tag records, and the output
that they give. -/

-- One theorem after the other: each elaboration task that runs beside another takes a stack from the check's memory limit.
set_option Elab.async false

namespace Sys2Proof.Machine

variable {s t u : State} {n m : StationId} {l : List StationId}

/-! ### The station records (R15) -/

/-- A record as a FIELD_RESET leaves it: that of an enrolled station is enrolled anew. -/
def Station.renewed (x : Station) : Station := if x.state = .vacant then x else x.fieldReset

theorem Station.renewed_vacant {x : Station} (vacant : x.state = .vacant) : x.renewed = x := if_pos vacant

theorem Station.renewed_enrolled {x : Station} (enrolled : x.state ≠ .vacant) : x.renewed = x.fieldReset := if_neg enrolled

/-- The held flag tells nothing of the rest of the renewed record. -/
theorem Station.renewed_congr {x y : Station} (h : y = { x with held := y.held }) :
    y.renewed = { x.renewed with held := y.renewed.held } := by
  rw [h]
  simp only [renewed]
  split
  · rfl
  · rfl

theorem resetStation_eq (s : State) (n : StationId) : resetStation s n =
    if (s.station n).state = .vacant then s
    else if (s.station n).state = .enrolled then s.setStation n (s.station n).fieldReset
    else changeStation n (s.station n).fieldReset none s := by
  rw [resetStation]
  cases h : (s.station n).state <;> simp

/-- Stations are reset one by one: each step writes one record, but for held flags. -/
theorem HeldOnly.resetStation (s : State) (n : StationId) :
    HeldOnly (s.setStation n (s.station n).renewed) (resetStation s n) := by
  rw [resetStation_eq]
  split_ifs with vacant enrolled
  · rw [Station.renewed_vacant vacant]
    exact .of_eq (by simp [State.setStation, State.station])
  · rw [Station.renewed_enrolled vacant]
    exact .refl _
  · rw [Station.renewed_enrolled vacant]
    exact .changeStation n _ none s

theorem resetStation_other (other : m ≠ n) (s : State) :
    (resetStation s n).station m = { s.station m with held := ((resetStation s n).station m).held } := by
  have := HeldOnly.resetStation s n m
  rwa [State.station_setStation, if_neg other] at this

theorem resetStation_other_state (other : m ≠ n) (s : State) :
    ((resetStation s n).station m).state = (s.station m).state := by
  rw [resetStation_other other]

theorem foldl_resetStation_station (distinct : l.Nodup) (s : State) (m : StationId) :
    (l.foldl resetStation s).station m =
      { (if m ∈ l then (s.station m).renewed else s.station m) with held := ((l.foldl resetStation s).station m).held } := by
  induction l generalizing s with
  | nil => rfl
  | cons n l ih =>
    obtain ⟨once, distinct⟩ := List.nodup_cons.mp distinct
    rw [List.foldl_cons, ih distinct]
    by_cases own : m = n
    · subst own
      rw [if_neg once, if_pos List.mem_cons_self, HeldOnly.resetStation s m m, State.station_setStation_self]
    · have record := resetStation_other own s
      simp only [List.mem_cons, own, false_or]
      split
      · rw [Station.renewed_congr record]
      · rw [record]

/-- Outside DRIVER and ENDGAME the reset of a station raises no held flag. -/
theorem resetStation_lowers (still : s.control.phase.isDriven = false) (n : StationId)
    (released : ((s.setStation n (s.station n).renewed).station m).held = false) :
    ((resetStation s n).station m).held = false := by
  rw [resetStation_eq]
  split_ifs with vacant enrolled
  · rw [Station.renewed_vacant vacant, State.station_setStation] at released
    split at released
    · next own => exact own ▸ released
    · exact released
  · rwa [Station.renewed_enrolled vacant] at released
  · rw [Station.renewed_enrolled vacant] at released
    exact changeStation_lowers still n m _ none released

/-- Once a flag is clear it stays so, and the reset of an enrolled station clears it. -/
theorem foldl_resetStation_held (still : s.control.phase.isDriven = false) (distinct : l.Nodup)
    (h : (s.station m).held = false ∨ m ∈ l ∧ (s.station m).state ≠ .vacant) :
    ((l.foldl resetStation s).station m).held = false := by
  induction l generalizing s with
  | nil => exact h.resolve_right fun absent => absurd absent.1 List.not_mem_nil
  | cons n l ih =>
    obtain ⟨once, distinct⟩ := List.nodup_cons.mp distinct
    rw [List.foldl_cons]
    refine ih (by simpa using still) distinct ?_
    by_cases own : m = n
    · subst own
      refine .inl (resetStation_lowers still m ?_)
      rw [State.station_setStation_self, Station.renewed]
      split
      · next vacant => exact h.resolve_right fun live => live.2 vacant
      · rfl
    · rcases h with clear | ⟨listed, live⟩
      · exact .inl (resetStation_lowers still n (by rwa [State.station_setStation, if_neg own]))
      · exact .inr ⟨(List.mem_cons.mp listed).resolve_left own, by rwa [resetStation_other_state own]⟩

theorem resetStation_staleLimit (s : State) (n : StationId) :
    (resetStation s n).stations.staleLimit = s.stations.staleLimit := by
  have evaluated : ∀ u, (evaluatePartners n u).stations.staleLimit = u.stations.staleLimit := fun u => by
    rw [evaluatePartners]
    refine foldl_keeps (fun s => s.stations.staleLimit) (fun s m => ?_) _ u
    split
    · exact evaluateHold_staleLimit s m
    · rfl
  rw [resetStation_eq]
  split_ifs
  · rfl
  · rfl
  · simp only [changeStation, evaluated, stationChange_stations]
    split <;> simp

/-! ### The tag records (R30) -/

/-- A tag record without the stations that are gone. -/
def TagRecord.without (gone : StationId → Prop) [DecidablePred gone] (z : TagRecord) : TagRecord :=
  match z.origin with
  | .robot (some n) sequence => if gone n then { z with origin := .robot none sequence } else z
  | _ => z

theorem TagRecord.without_congr {p q : StationId → Prop} [DecidablePred p] [DecidablePred q] (h : ∀ n, p n ↔ q n)
    (z : TagRecord) : z.without p = z.without q := by
  simp only [without, h]

theorem TagRecord.without_nobody {p : StationId → Prop} [DecidablePred p] (h : ∀ n, ¬p n) (z : TagRecord) :
    z.without p = z := by
  simp only [without, h, if_false]
  split <;> rfl

theorem TagRecord.without_without (p q : StationId → Prop) [DecidablePred p] [DecidablePred q] (z : TagRecord) :
    (z.without p).without q = z.without fun n => p n ∨ q n := by
  obtain ⟨origin, position, sentOn, timer⟩ := z
  rcases origin with ⟨_ | n, sequence⟩ | tag
  · rfl
  · by_cases hp : p n <;> simp [without, hp]
  · rfl

theorem TagRecord.clearStation_eq_without (n : StationId) (z : TagRecord) : z.clearStation n = z.without (· = n) :=
  clearStation_eq n z

/-- Where a station is not LINKED its change of state leaves the chain alone. -/
theorem changeStation_chain_of_unlinked (unlinked : (s.station n).state ≠ .linked) (x : Station) :
    (changeStation n x none s).chain = s.chain := by
  simp only [changeStation_eq, if_neg unlinked, evaluatePartners_chain, stationChange_chain, State.setStation_chain]

theorem resetStation_tag (s : State) (n : StationId) (k : TagId) : (resetStation s n).tag k =
    (s.tag k).map (TagRecord.without fun m => m = n ∧ (s.station m).state = .linked) := by
  by_cases linked : (s.station n).state = .linked
  · rw [resetStation_eq, if_neg (by simp [linked]), if_neg (by simp [linked]), changeStation_tag linked]
    refine Option.map_congr fun z _ => ?_
    rw [TagRecord.clearStation_eq_without]
    exact TagRecord.without_congr (fun m => ⟨fun h => ⟨h, h ▸ linked⟩, And.left⟩) z
  · have chain : (resetStation s n).chain = s.chain := by
      rw [resetStation_eq]
      split_ifs
      · rfl
      · rfl
      · exact changeStation_chain_of_unlinked linked _
    have nobody : ∀ m, ¬(m = n ∧ (s.station m).state = .linked) := fun m h => linked (h.1 ▸ h.2)
    rw [State.tag, chain, funext (TagRecord.without_nobody nobody)]
    exact Option.map_id'.symm

theorem foldl_resetStation_tag (distinct : l.Nodup) (s : State) (k : TagId) : (l.foldl resetStation s).tag k =
    (s.tag k).map (TagRecord.without fun m => m ∈ l ∧ (s.station m).state = .linked) := by
  induction l generalizing s with
  | nil =>
    rw [funext (TagRecord.without_nobody fun m h => List.not_mem_nil h.1)]
    exact Option.map_id'.symm
  | cons n l ih =>
    obtain ⟨once, distinct⟩ := List.nodup_cons.mp distinct
    rw [List.foldl_cons, ih distinct, resetStation_tag, Option.map_map]
    refine Option.map_congr fun z _ => (TagRecord.without_without _ _ z).trans (TagRecord.without_congr (fun m => ?_) z)
    by_cases own : m = n
    · subst own
      simp [once]
    · simp [own, resetStation_other_state own]

/-- Departures write nothing else of the chain. -/
theorem resetStation_chain (s : State) (n : StationId) :
    (resetStation s n).chain = { s.chain with tags := (resetStation s n).chain.tags } := by
  dsimp only
  rw [← resetStation_chain_nodes s n, ← resetStation_chain_mode s n, ← resetStation_chain_replyTimeout s n,
    ← resetStation_chain_slot s n, ← resetStation_chain_census s n, ← resetStation_chain_halted s n,
    ← resetStation_chain_sideA s n, ← resetStation_chain_sideB s n]

theorem foldl_resetStation_chain (l : List StationId) (s : State) :
    (l.foldl resetStation s).chain = { s.chain with tags := (l.foldl resetStation s).chain.tags } := by
  induction l generalizing s with
  | nil => rfl
  | cons n l ih => rw [List.foldl_cons, ih, resetStation_chain]

/-! ### The output of departures -/

/-- The purge of a station's commands comes to the areas that serve CHAIN alone (R30). -/
theorem purgeCommands_area_other {a : AreaId} (off : (s.area a).servesConsumer .chain = false) :
    (purgeCommands n s).area a = s.area a := by
  have area : (purgeCommands n s).area a = if (s.area a).servesConsumer .chain then _ else s.area a := Table.get_map ..
  rw [area, off]
  rfl

/-- The purge takes frames alone. -/
theorem purgeCommands_area (n : StationId) (s : State) (a : AreaId) :
    (purgeCommands n s).area a = { s.area a with frames := ((purgeCommands n s).area a).frames } := by
  simp only [State.area, purgeCommands, Table.get_map]
  split
  · rfl
  · rfl

/-- Frames are added at the tails of the areas that do not serve CHAIN, and of the ports and counts of output only discards and
the reports-lost flag move; the areas that serve CHAIN may lose frames. -/
structure OutputGrowsButChain (s t : State) : Prop where
  join : ∀ a, (t.area a).join = (s.area a).join
  stored : ∀ a, (s.area a).servesConsumer .chain = false → (s.area a).frames <+: (t.area a).frames
  port : ∀ p, t.port p = { s.port p with discards := (t.port p).discards }
  lost : s.reportsLost = true → t.reportsLost = true

namespace OutputGrowsButChain

theorem of_grows (h : OutputGrows s t) (k : AreasKept s t) : OutputGrowsButChain s t where
  join a := (k.layout a).2.2
  stored a _ := h.stored a
  port := h.port
  lost := h.lost

theorem of_eq (areas : t.areas = s.areas := by simp) (framers : t.framers = s.framers := by simp)
    (lost : t.reportsLost = s.reportsLost := by simp) : OutputGrowsButChain s t :=
  of_grows (.of_eq areas framers lost) (.of_eq areas)

theorem refl (s : State) : OutputGrowsButChain s s := of_eq rfl rfl rfl

theorem out (h : OutputOnly s t) : OutputGrowsButChain s t := of_grows (.out h) (.out h)

theorem trans (h : OutputGrowsButChain s t) (k : OutputGrowsButChain t u) : OutputGrowsButChain s u where
  join a := (k.join a).trans (h.join a)
  stored a off := (h.stored a off).trans (k.stored a (by rwa [servesConsumer_congr (h.join a)]))
  port p := by rw [k.port p, h.port p]
  lost x := k.lost (h.lost x)

theorem foldl {α : Type} {f : State → α → State} (h : ∀ s x, OutputGrowsButChain s (f s x)) (l : List α) (s : State) :
    OutputGrowsButChain s (l.foldl f s) := by
  induction l generalizing s with
  | nil => exact refl s
  | cons x l ih => exact (h s x).trans (ih (f s x))

theorem handOver (q : Position) (s : State) : OutputGrowsButChain s (handOver q s) := by
  simp only [Machine.handOver]
  split
  · exact refl s
  · exact trans of_eq (out (.answer _ _ _))

theorem removeHold (n : StationId) (s : State) (q : Position) : OutputGrowsButChain s (removeHold n s q) := by
  simp only [Machine.removeHold]
  split
  · exact trans of_eq (handOver q _)
  · exact refl s

theorem purgeCommands (n : StationId) (s : State) : OutputGrowsButChain s (purgeCommands n s) where
  join a := ((AreasKept.purgeCommands n s).layout a).2.2
  stored a off := by rw [purgeCommands_area_other off]
  port p := by cases p <;> rfl
  lost := id

theorem leaveLinked (n : StationId) (s : State) : OutputGrowsButChain s (leaveLinked n s) := by
  have unlisted : OutputGrowsButChain s (removeWaits n s) := of_eq
  have removed : OutputGrowsButChain s (removeClaims n s) := unlisted.trans (foldl (removeHold n) _ _)
  have cleared : ∀ u, OutputGrowsButChain u (clearTags n u) := fun _ => of_eq
  exact removed.trans ((purgeCommands n _).trans (cleared _))

theorem evaluatePartners (n : StationId) (s : State) : OutputGrowsButChain s (evaluatePartners n s) :=
  of_grows (.foldl (fun s m => by split; exact .evaluateHold s m; exact .refl s) _ s) (.evaluatePartners n s)

theorem resetStation (s : State) (n : StationId) : OutputGrowsButChain s (resetStation s n) := by
  have written : ∀ x, OutputGrowsButChain s (s.setStation n x) := fun x => of_eq rfl rfl rfl
  rw [resetStation_eq]
  split_ifs
  · exact refl s
  · exact written _
  · rw [changeStation_eq]
    refine trans ?_ ((out (.stationChange _ _ _ _)).trans (evaluatePartners n _))
    simp only
    split
    · exact (written _).trans (leaveLinked n _)
    · exact written _

end OutputGrowsButChain

/-! ### All stations, in ascending number -/

/-- Every station is reset (R15, R195). -/
@[irreducible] def stationsReset (s : State) : State := (List.finRange 32).foldl resetStation s

theorem stationsReset_eq (s : State) : stationsReset s = (List.finRange 32).foldl resetStation s := by
  unfold stationsReset
  rfl

theorem stationsReset_keeps {β : Type} {p : State → β} (h : ∀ s n, p (resetStation s n) = p s) (s : State) :
    p (stationsReset s) = p s := by
  rw [stationsReset_eq]
  exact foldl_keeps p h _ s

theorem stationsReset_station (s : State) (n : StationId) : (stationsReset s).station n =
    { (s.station n).renewed with held := ((stationsReset s).station n).held } := by
  have record := foldl_resetStation_station (List.nodup_finRange 32) s n
  rwa [if_pos (List.mem_finRange n), ← stationsReset_eq] at record

theorem stationsReset_held (still : s.control.phase.isDriven = false) (enrolled : (s.station n).state ≠ .vacant) :
    ((stationsReset s).station n).held = false := by
  rw [stationsReset_eq]
  exact foldl_resetStation_held still (List.nodup_finRange 32) (.inr ⟨List.mem_finRange n, enrolled⟩)

theorem stationsReset_tag (s : State) (k : TagId) : (stationsReset s).tag k =
    (s.tag k).map (TagRecord.without fun n => (s.station n).state = .linked) := by
  rw [stationsReset_eq, foldl_resetStation_tag (List.nodup_finRange 32)]
  exact Option.map_congr fun z _ => TagRecord.without_congr (fun n => by simp) z

theorem stationsReset_chain (s : State) :
    (stationsReset s).chain = { s.chain with tags := (stationsReset s).chain.tags } := by
  rw [stationsReset_eq]
  exact foldl_resetStation_chain _ s

theorem stationsReset_output (s : State) : OutputGrowsButChain s (stationsReset s) := by
  rw [stationsReset_eq]
  exact .foldl .resetStation _ s

end Sys2Proof.Machine
end

section
/-! SUPPORT. FIELD_RESET: the blocks that it clears once the stations are reset, and how SETUP is entered and told from ENDED. -/

-- One theorem after the other: each elaboration task that runs beside another takes a stack from the check's memory limit.
set_option Elab.async false

namespace Sys2Proof.Machine

variable {s t : State} {n : StationId} {a b : AreaId} {f : Frame}

/-! ### SETUP entered (R159) -/

theorem Phase.isPaused_of_isEnded {p : Phase} (ended : p.isEnded = true) : p.isPaused = false := by
  cases p with
  | ended => rfl
  | setup | staged | running | paused => exact nomatch ended

/-- Of the entry effects ENDED leaves only the held flags to SETUP. -/
theorem enterPhase_setup (ended : s.control.phase.isEnded = true) :
    enterPhase .setup 0 s = clearHeld (announced .setup 0 s) := by
  have resumed := Phase.isPaused_of_isEnded ended
  have held : ∀ u, holdEntry .setup u = clearHeld u := fun _ => rfl
  have paused : Phase.setup.isPaused = false := rfl
  have left : Phase.setup.isEnded = false := rfl
  simp [enterPhase_eq, enteredAfterPurge, enteredBeforePurge, tallyEntry, chainEntry, queueEntry, creditEntry, claimEntry, held,
    resumed, paused, left]

/-- The ARENA PHASE notice of SETUP. -/
def setupArena : Frame :=
  { source := 0, destination := 63, sequence := 0, label := 0, kind := .arena, payload := [1, 0, 0, 0, 0, 0, 0] }

/-- The PHASE_CHANGE notice of SETUP. -/
def setupReport : Frame :=
  { source := 0, destination := 0, sequence := 0, label := 0, kind := .report
    payload := [0x81, 0, 0, 0, 255, 0, 0, 0, 0, 0] }

theorem phaseArena_setup {c : PhaseControl} (setup : c.phase = .setup) (timer : c.timer = 0) : phaseArena c = setupArena := by
  rw [phaseArena, setup, timer]
  rfl

theorem phaseReport_setup {c : PhaseControl} (setup : c.phase = .setup) (timer : c.timer = 0) :
    phaseReport c = setupReport := by
  rw [phaseReport, setup, timer]
  rfl

/-- A frame is copied to some of the radio ports, each by its own areas. -/
def copyTo (f : Frame) (l : List RadioPort) (s : State) : State := l.foldl (fun u k => offerRadio k .urgent none f u) s

theorem OutputOnly.copyTo (f : Frame) (l : List RadioPort) (s : State) : OutputOnly s (copyTo f l s) :=
  .foldl (fun u k => .offerRadio k _ _ _ u) l s

theorem announced_setup (s : State) : announced .setup 0 s = offerReport .normal setupReport
    (copyTo setupArena (List.finRange 4)
      (s.setControl { s.control with phase := .setup, timer := 0, accumulator := 0 })) := by
  rw [announced, announcePhase_eq]
  dsimp only
  rw [phaseArena_setup rfl rfl, phaseReport_setup rfl rfl, finRange_four]
  rfl

theorem OutputOnly.announced (new : Phase) (timer : Nat) (s : State) :
    ∃ c, OutputOnly (s.setControl c) (announced new timer s) := ⟨_, .announcePhase _⟩

/-! ### The blocks cleared (R195) -/

/-- The other blocks are cleared, once the stations are reset; the phase is as it was. -/
def blocksCleared (u : State) : State := resetMatch (emptyStations (fillCredit (clearClaims u)))

theorem blocksCleared_control (u : State) : (blocksCleared u).control = { u.control with timer := 0, accumulator := 0 } := rfl

theorem blocksCleared_area (u : State) (a : AreaId) : (blocksCleared u).area a =
    if (u.area a).servesConsumer (.port .ml) then u.area a else { u.area a with frames := [] } := Table.get_map ..

theorem blocksCleared_area_reports {u : State} (reports : (u.area a).servesConsumer (.port .ml) = true) :
    (blocksCleared u).area a = u.area a := (blocksCleared_area u a).trans (if_pos reports)

theorem blocksCleared_area_other {u : State} (other : (u.area a).servesConsumer (.port .ml) = false) :
    (blocksCleared u).area a = { u.area a with frames := [] } :=
  (blocksCleared_area u a).trans (if_neg (by rw [other]; exact Bool.false_ne_true))

/-- The stations are reset and the other blocks cleared; the phase is as it was. -/
def fieldCleared (s : State) : State := blocksCleared (stationsReset s)

theorem fieldCleared_control (s : State) : (fieldCleared s).control = { s.control with timer := 0, accumulator := 0 } := by
  rw [fieldCleared, blocksCleared_control, stationsReset_keeps (p := State.control) (fun s n => by simp)]

theorem fieldCleared_layout (s : State) (a : AreaId) : ((fieldCleared s).area a).start = (s.area a).start
    ∧ ((fieldCleared s).area a).stop = (s.area a).stop ∧ ((fieldCleared s).area a).join = (s.area a).join := by
  have stations := (AreasKept.foldl .resetStation (List.finRange 32) s).layout a
  rw [← stationsReset_eq] at stations
  rw [fieldCleared, blocksCleared_area]
  split
  · exact stations
  · exact stations

theorem fieldCleared_join (s : State) (a : AreaId) : ((fieldCleared s).area a).join = (s.area a).join :=
  (fieldCleared_layout s a).2.2

theorem fieldCleared_frames_other (other : (s.area a).servesConsumer (.port .ml) = false) :
    ((fieldCleared s).area a).frames = [] := by
  rw [fieldCleared, blocksCleared_area_other]
  rwa [servesConsumer_congr ((stationsReset_output s).join a)]

theorem fieldReset_eq (s : State) : fieldReset s =
    if s.control.phase.isEnded then enterPhase .setup 0 (fieldCleared s) else fieldCleared s := by
  rw [fieldReset, fieldCleared, stationsReset_eq]
  rfl

theorem fieldReset_ended (ended : s.control.phase.isEnded = true) :
    fieldReset s = clearHeld (announced .setup 0 (fieldCleared s)) := by
  rw [fieldReset_eq, if_pos ended, enterPhase_setup (by rw [fieldCleared_control]; exact ended)]

theorem clearHeld_area (u : State) (a : AreaId) : (clearHeld u).area a = u.area a := rfl

theorem fieldReset_setup (setup : s.control.phase = .setup) : fieldReset s = fieldCleared s := by
  rw [fieldReset_eq, if_neg (by rw [setup]; exact Bool.false_ne_true)]

theorem Phase.between_cases {p : Phase} (between : p.isBetween = true) : p = .setup ∨ p.isEnded = true := by
  cases p with
  | setup => exact .inl rfl
  | ended => exact .inr rfl
  | staged | running | paused => exact nomatch between

/-- What neither the held flags nor the announcements nor the phase are part of is as the clearing left it. -/
theorem fieldReset_keeps {β : Type} {p : State → β} (between : s.control.phase.isBetween = true)
    (held : ∀ u, p (clearHeld u) = p u) (told : ∀ u, p (announced .setup 0 u) = p u) :
    p (fieldReset s) = p (fieldCleared s) := by
  rcases Phase.between_cases between with setup | ended
  · rw [fieldReset_setup setup]
  · rw [fieldReset_ended ended, held, told]

/-! ### Field by field -/

section
variable (between : s.control.phase.isBetween = true)
include between

theorem fieldReset_control :
    (fieldReset s).control = { s.control with phase := .setup, timer := 0, accumulator := 0 } := by
  rcases Phase.between_cases between with setup | ended
  · rw [fieldReset_setup setup, fieldCleared_control]
    dsimp only
    rw [← setup]
  · rw [fieldReset_ended ended, clearHeld_control, announced, announcePhase_control, fieldCleared_control]
    rfl

theorem fieldReset_station (n : StationId) :
    (fieldReset s).station n = { (s.station n).renewed with held := ((fieldReset s).station n).held } := by
  have record : HeldOnly (fieldCleared s) (fieldReset s) := by
    rcases Phase.between_cases between with setup | ended
    · rw [fieldReset_setup setup]
      exact .refl _
    · rw [fieldReset_ended ended]
      exact HeldOnly.trans (.of_eq (by simp [announced])) (.clearHeld _)
  have cleared : (fieldCleared s).station n = (stationsReset s).station n := rfl
  rw [record n, cleared, stationsReset_station]

theorem fieldReset_held (enrolled : (s.station n).state ≠ .vacant) : ((fieldReset s).station n).held = false := by
  rcases Phase.between_cases between with setup | ended
  · rw [fieldReset_setup setup]
    exact stationsReset_held (Phase.isDriven_of_isBetween between) enrolled
  · rw [fieldReset_ended ended, clearHeld_held]

theorem fieldReset_enrolled (enrolled : (s.station n).state ≠ .vacant) :
    (fieldReset s).station n = (s.station n).fieldReset := by
  rw [fieldReset_station between, fieldReset_held between enrolled, Station.renewed_enrolled enrolled]
  rfl

theorem fieldReset_vacant (vacant : (s.station n).state = .vacant) :
    (fieldReset s).station n = { s.station n with held := ((fieldReset s).station n).held } := by
  have record := fieldReset_station between n
  rwa [Station.renewed_vacant vacant] at record

theorem fieldReset_staleLimit : (fieldReset s).stations.staleLimit = s.stations.staleLimit := by
  rw [fieldReset_keeps (p := fun s => s.stations.staleLimit) between (fun _ => rfl) (fun u => by simp [announced])]
  exact stationsReset_keeps (p := fun s => s.stations.staleLimit) resetStation_staleLimit s

theorem fieldReset_credit : (fieldReset s).credit = { s.credit with balances := .fill 32 s.credit.cap } := by
  have credit := stationsReset_keeps (p := State.credit) (fun s n => by simp) s
  rw [fieldReset_keeps (p := State.credit) between (fun _ => rfl) (fun u => by simp [announced])]
  simp [fieldCleared, blocksCleared, resetMatch, fillCredit, credit]

theorem fieldReset_tally : (fieldReset s).tally = s.tally.fieldReset := by
  have tally := stationsReset_keeps (p := State.tally) (fun s n => by simp) s
  rw [fieldReset_keeps (p := State.tally) between (fun _ => rfl) (fun u => by simp [announced])]
  simp [fieldCleared, blocksCleared, resetMatch, tally]

theorem fieldReset_chain_eq : (fieldReset s).chain =
    { (stationsReset s).chain with census := none, halted := false } :=
  fieldReset_keeps (p := State.chain) between (fun _ => rfl) (fun u => by simp [announced])

theorem fieldReset_chain : (fieldReset s).chain =
    { s.chain with census := none, halted := false, tags := (fieldReset s).chain.tags } := by
  rw [fieldReset_chain_eq between, stationsReset_chain]

theorem fieldReset_tag (k : TagId) : (fieldReset s).tag k =
    (s.tag k).map (TagRecord.without fun n => (s.station n).state = .linked) := by
  rw [← stationsReset_tag, State.tag, fieldReset_chain_eq between]
  rfl

/-! ### The areas and the ports -/

theorem outputGrows_fieldCleared : OutputGrows (fieldCleared s) (fieldReset s) := by
  rcases Phase.between_cases between with setup | ended
  · rw [fieldReset_setup setup]
    exact .refl _
  · obtain ⟨c, told⟩ := OutputOnly.announced .setup 0 (fieldCleared s)
    have written : OutputGrows (fieldCleared s) ((fieldCleared s).setControl c) := .of_eq rfl rfl rfl
    rw [fieldReset_ended ended]
    exact (written.trans (.out told)).trans
      (.of_eq (clearHeld_areas _) (clearHeld_framers _) (clearHeld_reportsLost _))

theorem fieldReset_port (p : Port) :
    (fieldReset s).port p = { s.port p with discards := ((fieldReset s).port p).discards } := by
  have cleared : (fieldCleared s).port p = (stationsReset s).port p := by cases p <;> rfl
  rw [(outputGrows_fieldCleared between).port p, cleared, (stationsReset_output s).port p]

theorem fieldReset_lost (h : s.reportsLost = true) : (fieldReset s).reportsLost = true :=
  (outputGrows_fieldCleared between).lost ((stationsReset_output s).lost h)

theorem fieldReset_stored (reports : (s.area a).servesConsumer (.port .ml) = true) :
    (s.area a).frames <+: ((fieldReset s).area a).frames := by
  have serves : ((stationsReset s).area a).servesConsumer (.port .ml) = true := by
    rwa [servesConsumer_congr ((stationsReset_output s).join a)]
  refine ((stationsReset_output s).stored a (serves_port_chain reports)).trans ?_
  rw [← blocksCleared_area_reports serves]
  exact (outputGrows_fieldCleared between).stored a

end

/-- A report comes to no area but those that serve ML. -/
theorem offerReport_area_other (other : (s.area a).servesConsumer (.port .ml) = false) (l : Lane) (f : Frame) :
    (offerReport l f s).area a = s.area a := by
  have written : ∀ (u : State) (b : AreaId) (x : Area), (u.area b).servesConsumer (.port .ml) = true →
      (u.area a).servesConsumer (.port .ml) = false → (u.setArea b x).area a = u.area a := fun u b x serves off => by
    rw [State.area_setArea, if_neg]
    rintro rfl
    exact Bool.false_ne_true (off.symm.trans serves)
  suffices h : ∀ k l f (u : State), (u.area a).servesConsumer (.port .ml) = false →
      (offerReportIn k l f u).area a = u.area a from h 3 l f s other
  intro k
  induction k with
  | zero => exact fun l f u off => rfl
  | succ k ih =>
    intro l f u off
    simp only [offerReportIn]
    split
    · rfl
    · next b chosen =>
      have kept := fun x => written u b x (chooseArea_serves chosen) off
      split
      · split
        · exact kept _
        · rw [ih _ _ _ (by rw [State.area_setReportsLost_keep, kept]; exact off), State.area_setReportsLost_keep, kept]
      · exact kept _

/-- Outside the areas of ML a copy adds itself alone. -/
theorem offerRadio_frames (other : (s.area a).servesConsumer (.port .ml) = false) (k : RadioPort) :
    ∀ g ∈ ((offerRadio k .urgent none f s).area a).frames, g ∈ (s.area a).frames ∨ g = f := by
  have dropped : ∀ b, ((s.setArea b (s.area b).countDrop).area a).frames = (s.area a).frames
      ∧ ((s.setArea b (s.area b).countDrop).area a).join = (s.area a).join := fun b => by
    rw [State.area_setArea]
    split
    · next same => exact same ▸ ⟨rfl, rfl⟩
    · exact ⟨rfl, rfl⟩
  intro g member
  rw [offerRadio] at member
  split at member
  · exact .inl (by simpa [countDiscard] using member)
  · next b chosen =>
    split at member
    · refine .inl ?_
      rw [dropAt] at member
      split at member
      · rwa [(dropped b).1] at member
      · rwa [offerReport_area_other (by rwa [servesConsumer_congr (dropped b).2]), (dropped b).1] at member
    · rw [State.area_setArea] at member
      split at member
      · next same =>
        rcases List.mem_append.mp member with old | new
        · exact .inl (same ▸ old)
        · exact .inr (List.mem_singleton.mp new)
      · exact .inl member

theorem copyTo_frames (other : (s.area a).servesConsumer (.port .ml) = false) (l : List RadioPort) :
    ∀ g ∈ ((copyTo f l s).area a).frames, g ∈ (s.area a).frames ∨ g = f := by
  induction l generalizing s with
  | nil => exact fun g member => .inl member
  | cons k l ih =>
    intro g member
    have join := ((OutputOnly.offerRadio k .urgent none f s).layout a).2.2
    rcases ih (s := offerRadio k .urgent none f s) (by rwa [servesConsumer_congr join]) g member with old | new
    · exact offerRadio_frames other k g old
    · exact .inr new

/-- The areas not joined to ML hold nothing after a FIELD_RESET but the copies that tell of SETUP (R117, R195). -/
theorem fieldReset_frames (between : s.control.phase.isBetween = true)
    (other : (s.area a).servesConsumer (.port .ml) = false) :
    ∀ f ∈ ((fieldReset s).area a).frames, s.control.phase ≠ .setup ∧ f = setupArena := by
  intro f member
  have off : ((fieldCleared s).area a).servesConsumer (.port .ml) = false := by
    rwa [servesConsumer_congr (fieldCleared_join s a)]
  rcases Phase.between_cases between with setup | ended
  · rw [fieldReset_setup setup, fieldCleared_frames_other other] at member
    exact absurd member List.not_mem_nil
  · refine ⟨fun setup => Bool.false_ne_true (by rwa [setup] at ended), ?_⟩
    rw [fieldReset_ended ended, clearHeld_area, announced_setup, offerReport_area_other] at member
    · refine (copyTo_frames ?_ _ f member).resolve_left fun old => ?_
      · exact off
      · rw [State.area_setControl_keep, fieldCleared_frames_other other] at old
        exact absurd old List.not_mem_nil
    · rw [servesConsumer_congr ((OutputOnly.copyTo ..).layout a).2.2]
      exact off

/-- The areas that serve CHAIN are empty after a FIELD_RESET: no notice comes to them. -/
theorem fieldReset_commands (between : s.control.phase.isBetween = true)
    (chain : (s.area a).servesConsumer .chain = true) : ((fieldReset s).area a).frames = [] := by
  have other : (s.area a).servesConsumer (.port .ml) = false :=
    Bool.eq_false_iff.mpr fun serves => Bool.false_ne_true ((serves_port_chain serves).symm.trans chain)
  have serves : ((fieldCleared s).area a).servesConsumer .chain = true := by
    rwa [servesConsumer_congr (fieldCleared_join s a)]
  rw [← fieldCleared_frames_other other]
  rcases Phase.between_cases between with setup | ended
  · rw [fieldReset_setup setup]
  · obtain ⟨c, told⟩ := OutputOnly.announced .setup 0 (fieldCleared s)
    rw [fieldReset_ended ended, clearHeld_area]
    exact told.commands a serves

end Sys2Proof.Machine
end

section
/-! SUPPORT. FIELD_RESET where no claim is held and ML's area has room: which frames the areas then hold, and what the ports
count. -/

-- One theorem after the other: each elaboration task that runs beside another takes a stack from the check's memory limit.
set_option Elab.async false

namespace Sys2Proof.Machine

variable {s t u : State} {n : StationId} {a b : AreaId} {f : Frame} {fs gs : List Frame} {l : List StationId}

/-! ### Frames stored one after the other (R121) -/

/-- The area with frames stored at its tail. -/
def Area.storeAll (x : Area) (fs : List Frame) : Area := fs.foldl Area.store x

theorem Area.storeAll_append (x : Area) (fs gs : List Frame) : x.storeAll (fs ++ gs) = (x.storeAll fs).storeAll gs :=
  List.foldl_append

theorem Area.storeAll_layout (x : Area) (fs : List Frame) :
    (x.storeAll fs).start = x.start ∧ (x.storeAll fs).stop = x.stop ∧ (x.storeAll fs).join = x.join := by
  induction fs generalizing x with
  | nil => exact ⟨rfl, rfl, rfl⟩
  | cons f fs ih => exact ih (x.store f)

theorem Area.storeAll_frames (x : Area) (fs : List Frame) : (x.storeAll fs).frames = x.frames ++ fs := by
  induction fs generalizing x with
  | nil => exact (List.append_nil _).symm
  | cons f fs ih => exact (ih (x.store f)).trans (List.append_cons x.frames f fs).symm

/-- The peak follows the count as soon as one frame is stored. -/
theorem Area.storeAll_eq (x : Area) (some : fs ≠ []) : x.storeAll fs =
    { x with frames := (x.storeAll fs).frames, peak := max x.peak (x.storeAll fs).frames.length } := by
  induction fs generalizing x with
  | nil => exact absurd rfl some
  | cons f fs ih =>
    cases fs with
    | nil => simp [storeAll, store]
    | cons g fs =>
      have stored := ih (x.store f) (List.cons_ne_nil g fs)
      have longer : x.frames.length + 1 ≤ ((x.store f).storeAll (g :: fs)).frames.length := by
        simp only [storeAll_frames, store, List.length_append, List.length_singleton]
        omega
      have peak : max (x.store f).peak ((x.store f).storeAll (g :: fs)).frames.length
          = max x.peak ((x.store f).storeAll (g :: fs)).frames.length := by
        simp only [store] at longer ⊢
        omega
      rw [peak] at stored
      exact stored

theorem Area.storeAll_room {x : Area} (room : x.frames.length + fs.length < x.stop - x.start) :
    (x.storeAll fs).full = false := by
  obtain ⟨start, stop, _⟩ := x.storeAll_layout fs
  rwa [full_false_iff, storeAll_frames, List.length_append, start, stop]

/-! ### What the stations tell -/

/-- Of the areas of ML, area a alone takes the frames fs; the others of them stay, the rest lose frames at most. -/
structure TellsAt (a : AreaId) (fs : List Frame) (s t : State) : Prop where
  area : t.area a = (s.area a).storeAll fs
  reports : ∀ b, b ≠ a → (s.area b).servesConsumer (.port .ml) = true → t.area b = s.area b
  rest : ∀ b, b ≠ a → t.area b = { s.area b with frames := (t.area b).frames }
  framers : t.framers = s.framers
  lost : t.reportsLost = s.reportsLost

namespace TellsAt

theorem of_eq (areas : t.areas = s.areas := by simp) (framers : t.framers = s.framers := by simp)
    (lost : t.reportsLost = s.reportsLost := by simp) : TellsAt a [] s t where
  area := by rw [State.area, areas]; rfl
  reports b _ _ := by rw [State.area, areas]; rfl
  rest b _ := by rw [State.area, State.area, areas]
  framers := framers
  lost := lost

theorem refl (s : State) : TellsAt a [] s s := of_eq rfl rfl rfl

theorem join (h : TellsAt a fs s t) (b : AreaId) : (t.area b).join = (s.area b).join := by
  by_cases own : b = a
  · rw [own, h.area]
    exact ((s.area a).storeAll_layout fs).2.2
  · rw [h.rest b own]

theorem trans (h : TellsAt a fs s t) (k : TellsAt a gs t u) : TellsAt a (fs ++ gs) s u where
  area := by rw [k.area, h.area, Area.storeAll_append]
  reports b other serves := by
    rw [k.reports b other (by rwa [servesConsumer_congr (h.join b)]), h.reports b other serves]
  rest b other := by rw [k.rest b other, h.rest b other]
  framers := k.framers.trans h.framers
  lost := k.lost.trans h.lost

/-- Operations that tell nothing from states with a property that they keep. -/
theorem foldl_still {α : Type} {P : State → Prop} {f : State → α → State}
    (h : ∀ s x, P s → P (f s x) ∧ TellsAt a [] s (f s x))
    (l : List α) (start : P s) : TellsAt a [] s (l.foldl f s) := by
  induction l generalizing s with
  | nil => exact refl s
  | cons x l ih =>
    obtain ⟨next, told⟩ := h s x start
    exact told.trans (ih next)

theorem offerReport (chosen : s.chooseArea (.port .ml) .normal none = some a) (room : (s.area a).full = false) (f : Frame) :
    TellsAt a [f] s (offerReport .normal f s) := by
  rw [offerReport_stored chosen room]
  exact
    { area := State.area_setArea_self ..
      reports := fun b other _ => by rw [State.area_setArea, if_neg other]
      rest := fun b other => by rw [State.area_setArea, if_neg other]
      framers := rfl
      lost := rfl }

/-- With no entry held a departure has nothing to hand over, and tells nothing (R89). -/
theorem leaveLinked (unheld : ∀ q, (s.claim q).hold = none) (serves : (s.area a).servesConsumer (.port .ml) = true)
    (n : StationId) : TellsAt a [] s (leaveLinked n s) := by
  have kept : ∀ u : State, (∀ q, (u.claim q).hold = none) → ∀ q, removeHold n u q = u := fun u free q =>
    if_neg (by rw [ClaimEntry.heldBy, free q]; exact Bool.false_ne_true)
  have removed : TellsAt a [] s (removeClaims n s) := by
    refine (of_eq rfl rfl rfl : TellsAt a [] s (removeWaits n s)).trans
      (foldl_still (P := fun u => ∀ q, (u.claim q).hold = none) (fun u q free => ?_) _ fun q => ?_)
    · rw [kept u free]
      exact ⟨free, refl u⟩
    · rw [removeWaits_claim]
      exact unheld q
  have purged : ∀ u : State, (u.area a).servesConsumer (.port .ml) = true → TellsAt a [] u (purgeCommands n u) :=
    fun u reports =>
      { area := purgeCommands_area_other (serves_port_chain reports)
        reports := fun b _ serves => purgeCommands_area_other (serves_port_chain serves)
        rest := fun b _ => purgeCommands_area n u b
        framers := rfl
        lost := rfl }
  have cleared : ∀ u : State, TellsAt a [] u (clearTags n u) := fun _ => of_eq
  exact (removed.trans (purged _ (by rwa [servesConsumer_congr (removed.join a)]))).trans (cleared _)

/-- Outside DRIVER and ENDGAME the evaluations tell nothing (R32). -/
theorem evaluatePartners (still : s.control.phase.isDriven = false) (n : StationId) :
    TellsAt a [] s (evaluatePartners n s) := by
  rw [Machine.evaluatePartners]
  refine foldl_still (P := fun u => u.control.phase.isDriven = false) (fun u m idle => ?_) _ still
  split
  · have quiet : evaluateHold u m = u ∨ ∃ x, evaluateHold u m = u.setStation m x := by
      simp only [evaluateHold, holdCondition_false idle, idle]
      split
      · exact .inl rfl
      · exact .inr ⟨_, rfl⟩
    refine ⟨by simpa using idle, ?_⟩
    rcases quiet with same | ⟨x, written⟩
    · rw [same]
      exact refl u
    · rw [written]
      exact of_eq rfl rfl rfl
  · exact ⟨idle, refl u⟩

end TellsAt

/-- A FIELD_RESET changes the state of the record (R15). -/
def Station.Changes (x : Station) : Prop := x.state ≠ .vacant ∧ x.state ≠ .enrolled

/-- The STATION_CHANGE notice of a station that is ENROLLED anew (R11). -/
def anewReport (n : StationId) (old : StationState) : Frame :=
  { source := 0, destination := 0, sequence := 0, label := 0, kind := .report
    payload := [0x82, 0, 0, byte (n.val + 1), byte old.code, 1] }

/-- A state in which stations are reset: no entry is held, no robot is to be held, and area a takes the reports. -/
structure Resettable (a : AreaId) (s : State) : Prop where
  unheld : ∀ q, (s.claim q).hold = none
  still : s.control.phase.isDriven = false
  chosen : s.chooseArea (.port .ml) .normal none = some a

theorem resetStation_unheld (unheld : ∀ q, (s.claim q).hold = none) (n : StationId) (q : Position) :
    ((resetStation s n).claim q).hold = none := by
  have kept : ∀ u : State, u.claims = s.claims → (u.claim q).hold = none := fun u claims => by
    rw [claim_congr claims]
    exact unheld q
  rw [resetStation_eq]
  split_ifs
  · exact unheld q
  · exact kept _ rfl
  · by_cases linked : (s.station n).state = .linked
    · have free : ((s.claim q).unlisted n).heldBy n = false := by
        rw [ClaimEntry.unlisted_heldBy, ClaimEntry.heldBy, unheld q]
        rfl
      rw [changeStation_claim linked, givenUp_other free]
      exact unheld q
    · refine kept _ ?_
      simp only [changeStation_eq, if_neg linked, evaluatePartners_claims, stationChange_claims, State.setStation_claims]

theorem Resettable.resetStation (h : Resettable a s) (n : StationId) : Resettable a (resetStation s n) where
  unheld := resetStation_unheld h.unheld n
  still := by simpa using h.still
  chosen := (chooseArea_congr (OutputGrowsButChain.resetStation s n).join ..).trans h.chosen

/-- A record whose state changes is told of, once. -/
theorem resetStation_changes (h : Resettable a s) (changes : (s.station n).Changes) (room : (s.area a).full = false) :
    TellsAt a [anewReport n (s.station n).state] s (resetStation s n) := by
  obtain ⟨live, other⟩ := changes
  have serves := chooseArea_serves h.chosen
  rw [resetStation_eq, if_neg live, if_neg other, changeStation_eq]
  dsimp only
  have left : TellsAt a [] s (if (s.station n).state = .linked then leaveLinked n (s.setStation n (s.station n).fieldReset)
      else s.setStation n (s.station n).fieldReset) := by
    have written : TellsAt a [] s (s.setStation n (s.station n).fieldReset) := .of_eq rfl rfl rfl
    split
    · exact written.trans (.leaveLinked (s := s.setStation n _) h.unheld serves n)
    · exact written
  have still : ∀ u : State, u.control = s.control → u.control.phase.isDriven = false := fun u control => by
    rw [control]
    exact h.still
  refine (left.trans (.offerReport ((chooseArea_congr left.join ..).trans h.chosen) ?_ _)).trans
    (.evaluatePartners (still _ ?_) n)
  · rw [left.area]
    exact room
  · rw [offerReport_control]
    split
    · exact leaveLinked_control _ _
    · rfl

theorem resetStation_unchanged (unchanged : ¬(s.station n).Changes) : TellsAt a [] s (resetStation s n) := by
  rw [resetStation_eq]
  split_ifs with vacant enrolled
  · exact .refl s
  · exact .of_eq rfl rfl rfl
  · exact absurd ⟨vacant, enrolled⟩ unchanged

/-- The notices of the stations of a list whose records change, in its order. -/
def anewReports (s : State) (l : List StationId) : List Frame :=
  (l.filter fun n => decide ((s.station n).state ≠ .vacant ∧ (s.station n).state ≠ .enrolled)).map
    fun n => anewReport n (s.station n).state

theorem anewReports_congr (h : ∀ n ∈ l, (t.station n).state = (s.station n).state) : anewReports t l = anewReports s l := by
  have filtered : l.filter (fun n => decide ((t.station n).state ≠ .vacant ∧ (t.station n).state ≠ .enrolled))
      = l.filter fun n => decide ((s.station n).state ≠ .vacant ∧ (s.station n).state ≠ .enrolled) :=
    List.filter_congr fun n member => by rw [h n member]
  rw [anewReports, anewReports, filtered]
  exact List.map_congr_left fun n member => by rw [h n (List.mem_of_mem_filter member)]

theorem foldl_resetStation_tells (h : Resettable a s) (distinct : l.Nodup)
    (room : (s.area a).frames.length + (anewReports s l).length ≤ (s.area a).stop - (s.area a).start) :
    TellsAt a (anewReports s l) s (l.foldl resetStation s) := by
  induction l generalizing s with
  | nil => exact .refl s
  | cons n l ih =>
    obtain ⟨once, distinct⟩ := List.nodup_cons.mp distinct
    have later : anewReports (resetStation s n) l = anewReports s l :=
      anewReports_congr fun m member => resetStation_other_state (fun same : m = n => once (same ▸ member)) s
    by_cases changes : (s.station n).Changes
    · have reports : anewReports s (n :: l) = anewReport n (s.station n).state :: anewReports s l := by
        rw [anewReports, List.filter_cons_of_pos (by simpa [Station.Changes] using changes)]
        rfl
      rw [reports, List.length_cons] at room
      have first := resetStation_changes h changes (full_false_iff.mpr (by omega))
      obtain ⟨start, stop, _⟩ := (s.area a).storeAll_layout [anewReport n (s.station n).state]
      have rest := ih (h.resetStation n) distinct (by
        rw [later, first.area, start, stop, Area.storeAll_frames, List.length_append, List.length_singleton]
        omega)
      rw [reports, ← later]
      exact first.trans rest
    · have reports : anewReports s (n :: l) = anewReports s l := by
        rw [anewReports, List.filter_cons_of_neg (by simpa [Station.Changes] using changes)]
        rfl
      have first := resetStation_unchanged (a := a) changes
      rw [reports] at room ⊢
      have rest := ih (h.resetStation n) distinct (by rw [later, first.area]; exact room)
      rw [← later]
      exact first.trans rest

theorem stationsReset_tells (h : Resettable a s)
    (room : (s.area a).frames.length + (anewReports s (List.finRange 32)).length ≤ (s.area a).stop - (s.area a).start) :
    TellsAt a (anewReports s (List.finRange 32)) s (stationsReset s) := by
  rw [stationsReset_eq]
  exact foldl_resetStation_tells h (List.nodup_finRange 32) room

/-! ### The copies to the radio ports (R57) -/

theorem servesConsumer_unique {x : Area} {c d : Consumer} (h : x.servesConsumer c = true) (k : x.servesConsumer d = true) :
    c = d := by
  obtain ⟨l, join⟩ := servesConsumer_iff.mp h
  obtain ⟨m, same⟩ := servesConsumer_iff.mp k
  exact congrArg Join.consumer (Option.some.inj (join.symm.trans same))

/-- Each of the ports takes one copy in an area of its own, or counts it where it has none. -/
structure Copied (f : Frame) (l : List RadioPort) (s t : State) : Prop where
  area : ∀ b, t.area b = s.area b ∨
    ((∃ k ∈ l, (s.area b).servesConsumer (.port (.rl k)) = true) ∧ t.area b = (s.area b).store f)
  discards : ∀ k, (t.port (.rl k)).discards =
    if k ∈ l ∧ s.chooseArea (.port (.rl k)) .urgent none = none then countUp Config.maxCount (s.port (.rl k)).discards 1
    else (s.port (.rl k)).discards
  lost : t.reportsLost = s.reportsLost

/-- One copy, where the port's areas have room. -/
theorem offerRadio_copied (k : RadioPort)
    (room : ∀ b, (s.area b).servesConsumer (.port (.rl k)) = true → (s.area b).full = false) :
    Copied f [k] s (offerRadio k .urgent none f s) := by
  cases chosen : s.chooseArea (.port (.rl k)) .urgent none with
  | none =>
    rw [offerRadio_unserved chosen]
    refine ⟨fun b => .inl (State.area_setPort_keep ..), fun j => ?_, countDiscard_reportsLost ..⟩
    rw [countDiscard, State.port_setPort]
    by_cases own : j = k
    · subst own
      simp [chosen]
    · simp [own]
  | some a =>
    have serves := chooseArea_serves chosen
    rw [offerRadio_stored chosen (room a serves)]
    refine ⟨fun b => ?_, fun j => ?_, rfl⟩
    · rw [State.area_setArea]
      split
      · next own =>
        subst own
        exact .inr ⟨⟨k, List.mem_singleton_self k, serves⟩, rfl⟩
      · exact .inl rfl
    · rw [State.port_setArea_keep, if_neg]
      rintro ⟨listed, unserved⟩
      rw [List.mem_singleton.mp listed, chosen] at unserved
      exact Option.some_ne_none _ unserved

theorem copyTo_copied {l : List RadioPort} (distinct : l.Nodup)
    (room : ∀ k ∈ l, ∀ b, (s.area b).servesConsumer (.port (.rl k)) = true → (s.area b).full = false) :
    Copied f l s (copyTo f l s) := by
  induction l generalizing s with
  | nil => exact ⟨fun b => .inl rfl, fun k => by simp [copyTo], rfl⟩
  | cons k l ih =>
    obtain ⟨once, distinct⟩ := List.nodup_cons.mp distinct
    have first : Copied f [k] s (offerRadio k .urgent none f s) := offerRadio_copied k (room k List.mem_cons_self)
    have join := fun b => ((OutputOnly.offerRadio k .urgent none f s).layout b).2.2
    have apart : ∀ j ∈ l, ∀ b, (s.area b).servesConsumer (.port (.rl j)) = true →
        (offerRadio k .urgent none f s).area b = s.area b := fun j listed b serves => by
      refine (first.area b).resolve_right fun ⟨⟨i, own, here⟩, _⟩ => once ?_
      obtain rfl := List.mem_singleton.mp own
      exact (Port.rl.inj (Consumer.port.inj (servesConsumer_unique here serves))) ▸ listed
    have rest : Copied f l (offerRadio k .urgent none f s) (copyTo f (k :: l) s) :=
      ih distinct fun j listed b serves => by
        rw [servesConsumer_congr (join b)] at serves
        rw [apart j listed b serves]
        exact room j (List.mem_cons_of_mem k listed) b serves
    refine ⟨fun b => ?_, fun j => ?_, rest.lost.trans first.lost⟩
    · rcases rest.area b with same | ⟨⟨j, listed, serves⟩, stored⟩
      · rw [same]
        refine (first.area b).imp_right fun ⟨⟨i, own, here⟩, stored⟩ => ⟨⟨i, ?_, here⟩, stored⟩
        exact List.mem_cons.mpr (.inl (List.mem_singleton.mp own))
      · rw [servesConsumer_congr (join b)] at serves
        rw [apart j listed b serves] at stored
        exact .inr ⟨⟨j, List.mem_cons_of_mem k listed, serves⟩, stored⟩
    · rw [rest.discards j, first.discards j, chooseArea_congr join]
      by_cases own : j = k
      · subst own
        simp [once]
      · simp [own]

end Sys2Proof.Machine
end

section
/-! SUPPORT. What ML's area and the other areas hold after a FIELD_RESET with room, and the settled statement. -/

-- One theorem after the other: each elaboration task that runs beside another takes a stack from the check's memory limit.
set_option Elab.async false

namespace Sys2Proof.Machine

variable {s t u : State} {a b : AreaId} {f : Frame} {fs : List Frame}

/-! ### The areas after a FIELD_RESET with room -/

/-- Of the areas of ML, area a alone takes the frames fs and the others of them stay; an area not of ML holds other frames, and
its peak follows their count. -/
structure RefreshedAt (a : AreaId) (fs : List Frame) (s t : State) : Prop where
  area : t.area a = (s.area a).storeAll fs
  reports : ∀ b, b ≠ a → (s.area b).servesConsumer (.port .ml) = true → t.area b = s.area b
  others : ∀ b, (s.area b).servesConsumer (.port .ml) = false → t.area b =
    { s.area b with frames := (t.area b).frames, peak := max (s.area b).peak (t.area b).frames.length }
  lost : t.reportsLost = s.reportsLost

namespace RefreshedAt

theorem congr (h : RefreshedAt a fs s t) (areas : u.areas = t.areas) (lost : u.reportsLost = t.reportsLost) :
    RefreshedAt a fs s u := by
  have area : ∀ b, u.area b = t.area b := fun b => by rw [State.area, areas]; rfl
  exact { area := (area a).trans h.area, reports := fun b other serves => (area b).trans (h.reports b other serves)
          others := fun b off => by rw [area b]; exact h.others b off, lost := lost.trans h.lost }

theorem join (h : RefreshedAt a fs s t) (b : AreaId) : (t.area b).join = (s.area b).join := by
  by_cases own : b = a
  · rw [own, h.area]
    exact ((s.area a).storeAll_layout fs).2.2
  · cases serves : (s.area b).servesConsumer (.port .ml) with
    | true => rw [h.reports b own serves]
    | false => rw [h.others b serves]

/-- One report more, where area a still has room. -/
theorem offerReport (h : RefreshedAt a fs s t) (chosen : s.chooseArea (.port .ml) .normal none = some a)
    (room : (s.area a).frames.length + fs.length < (s.area a).stop - (s.area a).start) (f : Frame) :
    RefreshedAt a (fs ++ [f]) s (offerReport .normal f t) := by
  have told : TellsAt a [f] t (Machine.offerReport .normal f t) :=
    .offerReport ((chooseArea_congr h.join ..).trans chosen) (by rw [h.area]; exact Area.storeAll_room room) f
  refine ⟨by rw [told.area, h.area, Area.storeAll_append], fun b other serves => ?_, fun b off => ?_, told.lost.trans h.lost⟩
  · rw [told.reports b other (by rwa [servesConsumer_congr (h.join b)]), h.reports b other serves]
  · rw [offerReport_area_other (by rwa [servesConsumer_congr (h.join b)])]
    exact h.others b off

/-- The copies to the radio ports come to areas that are empty. -/
theorem copyTo (h : RefreshedAt a fs s t) (serves : (s.area a).servesConsumer (.port .ml) = true)
    (empty : ∀ b, (s.area b).servesConsumer (.port .ml) = false → (t.area b).frames = []) {l : List RadioPort}
    (copied : Copied f l t u) : RefreshedAt a fs s u := by
  have kept : ∀ b, (s.area b).servesConsumer (.port .ml) = true → u.area b = t.area b := fun b reports => by
    refine (copied.area b).resolve_right fun ⟨⟨k, _, radio⟩, _⟩ => ?_
    rw [servesConsumer_congr (h.join b)] at radio
    exact Port.noConfusion (Consumer.port.inj (servesConsumer_unique reports radio))
  refine ⟨(kept a serves).trans h.area, fun b other reports => (kept b reports).trans (h.reports b other reports),
    fun b off => ?_, copied.lost.trans h.lost⟩
  rcases copied.area b with same | ⟨_, stored⟩
  · rw [same]
    exact h.others b off
  · rw [stored, h.others b off, empty b off]
    simp [Area.store]

end RefreshedAt

theorem fieldCleared_refreshed (h : Resettable a s)
    (room : (s.area a).frames.length + (anewReports s (List.finRange 32)).length ≤ (s.area a).stop - (s.area a).start) :
    RefreshedAt a (anewReports s (List.finRange 32)) s (fieldCleared s) := by
  have stations := stationsReset_tells h room
  have serves := fun b c => servesConsumer_congr (stations.join b) c
  have reports : ∀ b, (s.area b).servesConsumer (.port .ml) = true → (fieldCleared s).area b = (stationsReset s).area b :=
    fun b here => blocksCleared_area_reports ((serves b _).trans here)
  have here := chooseArea_serves h.chosen
  refine ⟨(reports a here).trans stations.area, fun b other reported => ?_, fun b off => ?_, stations.lost⟩
  · rw [reports b reported, stations.reports b other reported]
  · have other : b ≠ a := fun same => Bool.false_ne_true (off.symm.trans (same ▸ here))
    rw [fieldCleared, blocksCleared_area_other ((serves b _).trans off), stations.rest b other]
    simp

/-! ### SETUP told from ENDED, with room -/

/-- The state from which SETUP is told on the radio ports. -/
def setupWritten (s : State) : State :=
  (fieldCleared s).setControl { (fieldCleared s).control with phase := .setup, timer := 0, accumulator := 0 }

theorem fieldReset_told (ended : s.control.phase.isEnded = true) : fieldReset s = clearHeld
    (offerReport .normal setupReport (copyTo setupArena (List.finRange 4) (setupWritten s))) := by
  rw [fieldReset_ended ended, announced_setup]
  rfl

/-- The areas of the radio ports are empty when SETUP is told, so that each has room where it is enabled. -/
theorem setupWritten_copied (enabled : ∀ b, (s.area b).join ≠ none → (s.area b).start < (s.area b).stop) :
    Copied setupArena (List.finRange 4) (setupWritten s) (copyTo setupArena (List.finRange 4) (setupWritten s)) := by
  refine copyTo_copied (List.nodup_finRange 4) fun k _ b radio => ?_
  have joined : (s.area b).servesConsumer (.port (.rl k)) = true := by
    rwa [← servesConsumer_congr (fieldCleared_join s b)]
  have other : (s.area b).servesConsumer (.port .ml) = false :=
    Bool.eq_false_iff.mpr fun reports => Port.noConfusion (Consumer.port.inj (servesConsumer_unique reports joined))
  obtain ⟨l, join⟩ := servesConsumer_iff.mp joined
  have area : (setupWritten s).area b = (fieldCleared s).area b := rfl
  obtain ⟨start, stop, _⟩ := fieldCleared_layout s b
  have slots := enabled b (by rw [join]; exact Option.some_ne_none _)
  rw [full_false_iff, area, fieldCleared_frames_other other, start, stop, List.length_nil]
  omega

/-- The reports that a FIELD_RESET sends after those of the stations: PHASE_CHANGE, from ENDED (R195). -/
def enteredReports (phase : Phase) : List Frame := if phase = .setup then [] else [setupReport]

/-- After a FIELD_RESET with room area a has taken a report for each record that changes, and PHASE_CHANGE from ENDED. -/
theorem fieldReset_refreshed (h : Resettable a s) (between : s.control.phase.isBetween = true)
    (enabled : ∀ b, (s.area b).join ≠ none → (s.area b).start < (s.area b).stop)
    (room : (s.area a).frames.length + (anewReports s (List.finRange 32)).length + (enteredReports s.control.phase).length
      ≤ (s.area a).stop - (s.area a).start) :
    RefreshedAt a (anewReports s (List.finRange 32) ++ enteredReports s.control.phase) s (fieldReset s) := by
  have cleared := fieldCleared_refreshed h (by omega)
  rcases Phase.between_cases between with setup | ended
  · rw [fieldReset_setup setup, enteredReports, if_pos setup, List.append_nil]
    exact cleared
  · have entered : enteredReports s.control.phase = [setupReport] :=
      if_neg fun setup => Bool.false_ne_true (by rwa [setup] at ended)
    rw [entered] at room ⊢
    have written : RefreshedAt a (anewReports s (List.finRange 32)) s (setupWritten s) := cleared.congr rfl rfl
    have copied := written.copyTo (chooseArea_serves h.chosen) (fun b off => fieldCleared_frames_other off)
      (setupWritten_copied enabled)
    rw [fieldReset_told ended]
    exact (copied.offerReport h.chosen (by simpa using room) setupReport).congr (clearHeld_areas _) (clearHeld_reportsLost _)

/-- Where stations tell with room, no port counts a frame but a radio port that has no area for the copy (R55). -/
theorem fieldReset_discards (h : Resettable a s) (between : s.control.phase.isBetween = true)
    (enabled : ∀ b, (s.area b).join ≠ none → (s.area b).start < (s.area b).stop)
    (room : (s.area a).frames.length + (anewReports s (List.finRange 32)).length ≤ (s.area a).stop - (s.area a).start)
    (p : Port) : ((fieldReset s).port p).discards = match p with
      | .ml => (s.port p).discards
      | .rl k => if s.control.phase = .setup ∨ s.chooseArea (.port (.rl k)) .urgent none ≠ none then (s.port p).discards
        else min 65535 ((s.port p).discards + 1) := by
  have port : ∀ p, (fieldCleared s).port p = s.port p := fun p => by
    have framers : (fieldCleared s).framers = s.framers := (stationsReset_tells h room).framers
    cases p <;> rw [State.port, framers] <;> rfl
  rcases Phase.between_cases between with setup | ended
  · rw [fieldReset_setup setup, port]
    cases p with
    | ml => rfl
    | rl k => exact (if_pos (.inl setup)).symm
  · have copied := setupWritten_copied enabled
    have framers : (fieldReset s).framers = (copyTo setupArena (List.finRange 4) (setupWritten s)).framers := by
      rw [fieldReset_told ended, clearHeld_framers, offerReport_framers]
    cases p with
    | ml =>
      have kept := (OutputOnly.copyTo setupArena (List.finRange 4) (setupWritten s)).ml
      have discards : ((fieldReset s).port .ml).discards = ((fieldCleared s).port .ml).discards := by
        rw [State.port, framers, kept]
        rfl
      rw [discards, port]
    | rl k =>
      have unchosen := chooseArea_congr (t := setupWritten s) (fieldCleared_join s) (.port (.rl k)) .urgent
      have counted := copied.discards k
      have before : (setupWritten s).port (.rl k) = s.port (.rl k) := port (.rl k)
      have entered : s.control.phase ≠ .setup := fun setup => Bool.false_ne_true (by rwa [setup] at ended)
      rw [unchosen, before] at counted
      rw [State.port, framers]
      refine counted.trans ?_
      by_cases served : s.chooseArea (.port (.rl k)) .urgent none = none
      · simp [served, entered, countUp, Config.maxCount]
      · simp [served]

/-! ### The request (R195) -/

theorem ownFieldReset_locked (h : s.control.phase.isBetween = false) : ownFieldReset s = refuse .locked s :=
  if_pos (by rw [h]; rfl)

theorem ownFieldReset_busy (h : s.control.phase.isBetween = true) (census : s.chain.census ≠ none) :
    ownFieldReset s = refuse .busy s := by
  rw [ownFieldReset, h, if_neg (by decide), if_pos census]

theorem ownFieldReset_done (h : s.control.phase.isBetween = true) (census : s.chain.census = none) :
    ownFieldReset s = done (fieldReset s) := by
  rw [ownFieldReset, h, if_neg (by decide), if_neg (fun running => running census)]

/-- The request is taken by its owner: its checks read nothing that the arrival has written. -/
theorem exec_fieldReset {r : Request} {o : Owned} (fits : r.args.length ≤ 46) (owned : ownFieldReset (mgmtArrives s) = o) :
    exec (.fieldReset r) s = .next (reply 0x04 r o) := by
  rw [← owned]
  exact takeRequest_taken fits (Nat.zero_le _)

theorem mgmtArrives_chooseArea (s : State) (c : Consumer) (l : Lane) :
    (mgmtArrives s).chooseArea c l none = s.chooseArea c l none := chooseArea_congr (fun _ => rfl) c l

theorem Resettable.mgmtArrives (h : Resettable a s) : Resettable a (mgmtArrives s) :=
  ⟨h.unheld, h.still, (mgmtArrives_chooseArea ..).trans h.chosen⟩

/-- The state after the arrival and the field reset, and the reply to it. -/
def fieldResetReplied (r : Request) (s : State) : State := reply 0x04 r (done (fieldReset (mgmtArrives s)))

theorem OutputOnly.fieldResetReplied (r : Request) (s : State) :
    OutputOnly (fieldReset (mgmtArrives s)) (fieldResetReplied r s) :=
  .reply 0x04 r (done (fieldReset (mgmtArrives s)))

/-- The reply OK (R10, R189). -/
def fieldResetReply (r : Request) : Frame :=
  { source := 0, destination := 0, sequence := r.sequence, label := 0, kind := .report, payload := [0x04, r.tag, 0] }

theorem fieldResetReplied_eq (r : Request) (s : State) :
    fieldResetReplied r s = offerReport .normal (fieldResetReply r) (fieldReset (mgmtArrives s)) := rfl

section
variable {r : Request} (between : s.control.phase.isBetween = true)
include between

theorem fieldResetReplied_port (p : Port) : (fieldResetReplied r s).port p = { s.port p with
    receive := if p = .ml then .idle else (s.port p).receive, discards := ((fieldResetReplied r s).port p).discards } := by
  have arrived : (mgmtArrives s).port p = { s.port p with receive := if p = .ml then .idle else (s.port p).receive } := by
    cases p <;> rfl
  rw [(OutputGrows.out (.fieldResetReplied r s)).port p, fieldReset_port (s := mgmtArrives s) between, arrived]

theorem fieldResetReplied_frames_other {a : AreaId} (other : (s.area a).servesConsumer (.port .ml) = false) :
    ∀ f ∈ ((fieldResetReplied r s).area a).frames, s.control.phase ≠ .setup ∧ f = setupArena := by
  have join : ((fieldReset (mgmtArrives s)).area a).join = (s.area a).join :=
    ((AreasKept.fieldReset (mgmtArrives s)).layout a).2.2
  rw [fieldResetReplied_eq, offerReport_area_other (by rwa [servesConsumer_congr join])]
  exact fieldReset_frames (s := mgmtArrives s) between other

theorem fieldResetReplied_commands {a : AreaId} (chain : (s.area a).servesConsumer .chain = true) :
    ((fieldResetReplied r s).area a).frames = [] := by
  have join : ((fieldReset (mgmtArrives s)).area a).join = (s.area a).join :=
    ((AreasKept.fieldReset (mgmtArrives s)).layout a).2.2
  rw [(OutputOnly.fieldResetReplied r s).commands a (by rwa [servesConsumer_congr join])]
  exact fieldReset_commands (s := mgmtArrives s) between chain

/-- The stations are reset in ascending number, then the other blocks; SETUP is entered last (R195). -/
theorem fieldReset_eq_of_between : fieldReset s =
    if s.control.phase = .setup then fieldCleared s else enterPhase .setup 0 (fieldCleared s) := by
  rw [fieldReset_eq]
  rcases Phase.between_cases between with setup | ended
  · rw [setup]
    rfl
  · rw [if_pos ended, if_neg fun setup => Bool.false_ne_true (by rwa [setup] at ended)]

variable (h : Resettable a s) (enabled : ∀ b, (s.area b).join ≠ none → (s.area b).start < (s.area b).stop)
  (room : (s.area a).frames.length + (anewReports s (List.finRange 32)).length + (enteredReports s.control.phase).length + 1
    ≤ (s.area a).stop - (s.area a).start)
include h enabled room

theorem fieldResetReplied_refreshed : RefreshedAt a
    (anewReports s (List.finRange 32) ++ enteredReports s.control.phase ++ [fieldResetReply r]) s (fieldResetReplied r s) := by
  have reset := fieldReset_refreshed h.mgmtArrives between enabled (Nat.le_of_succ_le room)
  have told : RefreshedAt a (anewReports s (List.finRange 32) ++ enteredReports s.control.phase) s
      (fieldReset (mgmtArrives s)) := ⟨reset.area, reset.reports, reset.others, reset.lost⟩
  rw [fieldResetReplied_eq]
  exact told.offerReport h.chosen (by rw [List.length_append]; omega) _

theorem fieldResetReplied_discards (p : Port) : ((fieldResetReplied r s).port p).discards = match p with
    | .ml => (s.port p).discards
    | .rl k => if s.control.phase = .setup ∨ s.chooseArea (.port (.rl k)) .urgent none ≠ none then (s.port p).discards
      else min 65535 ((s.port p).discards + 1) := by
  have slots : (s.area a).frames.length + (anewReports s (List.finRange 32)).length ≤ (s.area a).stop - (s.area a).start := by
    omega
  have counted := fieldReset_discards h.mgmtArrives between enabled slots p
  have port : (fieldResetReplied r s).port p = (fieldReset (mgmtArrives s)).port p := by
    cases p <;> rw [State.port, fieldResetReplied_eq, offerReport_framers] <;> rfl
  rw [port, counted]
  cases p with
  | ml => rfl
  | rl k =>
    dsimp only
    rw [mgmtArrives_chooseArea]
    rfl

end

/-! ### The statement -/

/-- Settles O6: the two refusals by the checks of the request; then what each block is after it, field by field, the whole next
state with the stations in ascending number, and, with room, the frames of each area and the counts of the ports. -/
theorem fieldResetPreparesTheNextMatch : Obligations.FieldResetPreparesTheNextMatch := by
  intro r s fits
  refine ⟨fun locked => exec_fieldReset fits (ownFieldReset_locked locked),
    fun between census => exec_fieldReset fits (ownFieldReset_busy between census),
    fun between census => ⟨fieldResetReplied r s, exec_fieldReset fits (ownFieldReset_done between census), ?_⟩⟩
  have out := OutputOnly.fieldResetReplied r s
  have arrived : (mgmtArrives s).control.phase.isBetween = true := between
  have layout := ((AreasKept.fieldReset (mgmtArrives s)).trans (.out out)).layout
  have station := station_congr out.stations
  refine ⟨?_, fun n enrolled => ?_, fun n vacant => ?_, ?_, fun q => ?_, fun n => ?_, ?_, ?_,
    fun a chain => fieldResetReplied_commands between chain, fun a other => fieldResetReplied_frames_other between other,
    fun a reports => ?_, layout, ?_, fun k => ?_, fieldResetReplied_port between, ?_, fun g a p => ?_, fun a => ?_, ?_,
    fun g => ?_, ?_, ?_, fun lost => out.lost (fieldReset_lost arrived lost), ?_, ⟨List.finRange 32, .refl _, ?_⟩, ?_⟩
  · rw [out.control, fieldReset_control arrived]
    rfl
  · rw [station, fieldReset_enrolled arrived enrolled]
    rfl
  · rw [station]
    exact fieldReset_vacant arrived vacant
  · rw [out.stations, fieldReset_staleLimit arrived]
    rfl
  · rw [State.claim, out.claims, fieldReset_claims, Table.get_fill]
    rfl
  · rw [State.balance, out.credit, fieldReset_credit arrived, Table.get_fill]
    rfl
  · rw [out.credit, fieldReset_credit arrived]
    rfl
  · rw [out.credit, fieldReset_credit arrived]
    rfl
  · exact (fieldReset_stored arrived reports).trans (out.stored a)
  · rw [out.chain, fieldReset_chain arrived]
    dsimp only
    rw [← census]
    rfl
  · rw [State.tag, out.chain]
    exact fieldReset_tag arrived k
  · rw [out.tally, fieldReset_tally arrived]
    rfl
  · have rows : (fieldResetReplied r s).record g a p
        = (((Table.fill 8 (Table.fill 4 PeriodRecords.zero)).get g).get a).get p := by
      rw [State.record, out.tally, fieldReset_tally arrived]
      rfl
    rw [rows, Table.get_fill, Table.get_fill, PeriodRecords.zero_get]
    rfl
  · rw [out.tally, fieldReset_tally arrived]
    exact ⟨Table.get_fill .., Table.get_fill ..⟩
  · rw [out.tally, fieldReset_tally arrived]
    rfl
  · rw [out.tally, fieldReset_tally arrived]
    exact Table.get_fill ..
  · rw [out.classifier, fieldReset_classifier]
    rfl
  · rw [out.map, fieldReset_map]
    rfl
  · rw [out.pending, fieldReset_pending]
    rfl
  · intro ends zero emptied
    have stations : stationsReset (mgmtArrives s) = ends := by
      rw [stationsReset_eq, funext₂ resetStation_eq]
      rfl
    have cleared : fieldCleared (mgmtArrives s) = emptied := by
      rw [fieldCleared, stations]
      clear_value ends
      rfl
    rw [fieldResetReplied, fieldReset_eq_of_between arrived, cleared]
    rfl
  · intro changed told entered a chosen room unheld enabled
    have reports : anewReports s (List.finRange 32)
        = changed.map fun n => told 0 [0x82, 0, 0, byte (n.val + 1), byte (s.station n).state.code, 1] := rfl
    have phase : enteredReports s.control.phase = entered := rfl
    have slots : (s.area a).frames.length + (anewReports s (List.finRange 32)).length
        + (enteredReports s.control.phase).length + 1 ≤ (s.area a).stop - (s.area a).start := by
      rwa [reports, phase, List.length_map]
    have start : Resettable a s := ⟨unheld, Phase.isDriven_of_isBetween between, chosen⟩
    have refreshed := fieldResetReplied_refreshed (r := r) between start enabled slots
    refine ⟨refreshed.lost, fieldResetReplied_discards between start enabled slots, ⟨changed, .refl _, ?_⟩, ?_,
      fun b other => ⟨refreshed.reports b other, refreshed.others b⟩⟩
    · rw [refreshed.area, Area.storeAll_frames, reports, phase, ← List.append_assoc, ← List.append_assoc]
      rfl
    · rw [refreshed.area]
      exact Area.storeAll_eq _ (by simp)

end Sys2Proof.Machine
end

section
/-! SUPPORT. The queue of commands: what a step does while a command waits. -/

namespace Sys2Proof.Machine

variable {s : State} {c : Instr} {rest : List Instr}

/-- With ownStep, which is run on an empty queue, this is all that a step can be. -/
theorem step_of_pending_cons (front : s.pending = c :: rest) : step s = exec c { s with pending := rest } := by
  rw [step, front]

/-- Settles O1: in the state of the statement the queue begins with c. -/
theorem stepTakesTheFrontCommand : Obligations.StepTakesTheFrontCommand := by
  intro c rest s
  have front : ({ s with pending := c :: rest } : State).pending = c :: rest := rfl
  exact step_of_pending_cons front

end Sys2Proof.Machine
end
